-- ==== Sys2Proof/Word.lean ====
section
/-! DEFINITION. The word types of the part (12 R181, R185, R187): bytes of the window, 16-bit fields, 24-bit posted
values, 32-bit arguments and returned values, and the 7-bit locations a port can reach. -/

namespace Sys2Proof

/-- One window location's content (12 R181). -/
abbrev Byte := BitVec 8

/-- A two-byte field: a stamp field of a posting slot, a cfg_rev, an event detail. -/
abbrev Word16 := BitVec 16

/-- An argument or returned value of a request (12 R185). -/
abbrev Word32 := BitVec 32

/-- A location a port can reach, 0x00 to 0x7F (12 R183, R184). -/
abbrev Loc := BitVec 7

end Sys2Proof
end

