-- ==== Sys2Proof/Syntax.lean ====
section
/-! DEFINITION. The commands of the part: one constructor for each row of spec/opcode_table.json. A request row has no
operand, since its fields are those latched at GO (10 R168). -/

namespace Sys2Proof

/-- The two ports (12). -/
inductive Port where
  | a
  | b
deriving DecidableEq, Repr

/-- A stack, 0 to 3. -/
abbrev StackNo := Fin 4

/-- A channel, 0 to 47 (02 R28). -/
abbrev ChannelNo := Fin 48

/-- An account slot, 0 to 127 (01 R1). -/
abbrev SlotNo := Fin 128

/-- One command: one whole step of the part. Each constructor's docstring names its row. -/
inductive Instr where
  /-- MINP_PULSE (R73). -/
  | minpPulse
  /-- SUPERVISION_EXPIRY (R74). -/
  | supervisionExpiry
  /-- GRACE_EXPIRY (R72). -/
  | graceExpiry
  /-- FEED_LINE_CHANGE (R50): the FEED line of `stack` takes `level` (true is on). -/
  | feedLineChange (stack : StackNo) (level : Bool)
  /-- DEBOUNCE_EXPIRY (R51): the debounce timer of `stack` expires. -/
  | debounceExpiry (stack : StackNo)
  /-- SUPPLY_LOW (R81). -/
  | supplyLow
  /-- RSTN_LOW (R81). -/
  | rstnLow
  /-- PART_STOP (R112). -/
  | partStop
  /-- SUPPLY_RESTORED (R82). -/
  | supplyRestored
  /-- RSTN_HIGH (R82). -/
  | rstnHigh
  /-- RESTART (R83). -/
  | restart
  /-- POWER_ON (R83). -/
  | powerOn
  /-- RESULT_ABSORPTION (R120). -/
  | resultAbsorption
  /-- STACK_ENTRY_ABSORPTION (R61). -/
  | stackEntryAbsorption
  /-- DAY_END_ABSORPTION (R126). -/
  | dayEndAbsorption
  /-- YEAR_END_ABSORPTION (R131). -/
  | yearEndAbsorption
  /-- GAP_WALK (R135). -/
  | gapWalk
  /-- GO (R168): `port` writes `value` to location 0x2F. -/
  | go (port : Port) (value : Byte)
  /-- CREATE_ACCOUNT (R17). -/
  | createAccount
  /-- SET_LIMITS (R18). -/
  | setLimits
  /-- LINK_SOURCE (R19). -/
  | linkSource
  /-- ACTIVATE (R20). -/
  | activate
  /-- AMEND (R21). -/
  | amend
  /-- REASSIGN (R23). -/
  | reassign
  /-- RETIRE (R24). -/
  | retire
  /-- DELETE_DRAFT (R25). -/
  | deleteDraft
  /-- CERTIFY (R26). -/
  | certify
  /-- MARK (R162). -/
  | mark
  /-- CONFIGURE_CHANNEL (R34). -/
  | configureChannel
  /-- START_CHANNEL (R36). -/
  | startChannel
  /-- STOP_CHANNEL (R37). -/
  | stopChannel
  /-- RELEASE_CHANNEL (R38). -/
  | releaseChannel
  /-- READ_CHANNEL (R39). -/
  | readChannel
  /-- SET_ALLOWANCE (R63). -/
  | setAllowance
  /-- READ_STACK (R65). -/
  | readStack
  /-- SET_FEED_INPUT (R53). -/
  | setFeedInput
  /-- DECLARE_ABNORMAL (R54). -/
  | declareAbnormal
  /-- END_ABNORMAL (R55). -/
  | endAbnormal
  /-- ACK_EPISODE (R149). -/
  | ackEpisode
  /-- READ_EPISODE (R151). -/
  | readEpisode
  /-- FIND (R158). -/
  | find
  /-- READ_ACCOUNT (R157). -/
  | readAccount
  /-- SET_CALENDAR (R79). -/
  | setCalendar
  /-- SET_GRACE (R78). -/
  | setGrace
  /-- RESUME (R84). -/
  | resume
  /-- FRAME_HEADER (R183): the first byte of a port A frame. -/
  | frameHeader (header : Byte)
  /-- FRAME_END (R183): CSN goes high. -/
  | frameEnd
  /-- REGISTER_WRITE (R181): `port` writes `value` to `loc`, a location with no row of its own. -/
  | registerWrite (port : Port) (loc : Loc) (value : Byte)
  /-- CALENDAR_CAPTURE (R182): `port` reads 0x04. -/
  | calendarCapture (port : Port)
  /-- VIEW_POINTER_WRITE (R186): `port` writes `value` to 0x52. -/
  | viewPointerWrite (port : Port) (value : Byte)
  /-- VIEW_DATA_READ (R186): `port` reads 0x53. -/
  | viewDataRead (port : Port)
  /-- RECORD_WRITE (R41, R187): port A writes `value` to the record byte at `loc`, 0x62 to 0x6B. -/
  | recordWrite (loc : Loc) (value : Byte)
  /-- HAND_OVER (R42): port A writes `value` to 0x6C. -/
  | handOver (value : Byte)
  /-- ENABLE_WRITE (R176): port A writes `value` to `loc`, 0x70 or 0x71. -/
  | enableWrite (loc : Loc) (value : Byte)
  /-- MASK_WRITE (R177): port A writes `value` to `loc`, 0x72 or 0x73. -/
  | maskWrite (loc : Loc) (value : Byte)
  /-- TRACKING_AND_VECTOR_BASE_WRITE (R179): port A writes `value` to 0x78. -/
  | trackingAndVectorBaseWrite (value : Byte)
  /-- VECTOR_READ (R178): port A reads 0x79. -/
  | vectorRead
  /-- PENDING_CLEAR (R179): port A writes `value` to 0x7B. -/
  | pendingClear (value : Byte)
  /-- END_OF_SERVICE (R179): port A writes `value` to 0x7D. -/
  | endOfService (value : Byte)
  /-- DETAIL_POINTER_WRITE (R180): port A writes `value` to 0x7E. -/
  | detailPointerWrite (value : Byte)
  /-- DETAIL_DATA_READ (R188): port A reads 0x7F. -/
  | detailDataRead
  /-- READ_SELECTOR (R184): port B receives a byte with bit 7 set. -/
  | readSelector (received : Byte)
  /-- WRITE_SELECTOR (R184): port B receives a byte with bit 7 clear. -/
  | writeSelector (received : Byte)
  /-- VALUE_BYTE (R184): port B receives a byte in the VALUE phase. -/
  | valueByte (received : Byte)
  /-- FRAMING_ERROR (R184): port B receives a byte with its stop bit low. -/
  | framingError
  /-- BREAK (R184): RXD has been low for two character times. -/
  | rxdBreak
  /-- ANSWER_SENT (R184): the answer on TXD has been sent. -/
  | answerSent
  /-- FRAME_START (R183): CSN goes low. -/
  | frameStart
  /-- BREAK_END (R184): RXD returns high after a break. -/
  | breakEnd
deriving DecidableEq, Repr

end Sys2Proof
end

