-- ==== Sys2Proof/Decode.lean ====
section
/-! DEFINITION. The table's rows give no bits (98_reader.md: no row with fixed bits), so no word spells a command
(assumption 20). -/

namespace Sys2Proof

/-- The command that a word of `nbits` bits spells by the table's bits: none, since no row gives bits. -/
def decodeTableWord (_nbits _w : Nat) : Option Instr := none

end Sys2Proof
end

