-- ==== Sys2Proof/Config.lean ====
section
/-! DEFINITION. What the part fixes (capacities and times, spec/00_scope.md) and the free values: constants with no body
for what the manual leaves open. -/

namespace Sys2Proof.Config

/-- Entries the Result Queue holds (06 R103). -/
def queueCapacity : Nat := 128

/-- Episodes the Episode List holds (08 R138). -/
def listCapacity : Nat := 32

/-- Supervision after a boundary taken from MINP, and on entering RUN, in seconds (04 R71, R74). -/
def supervisionTimeout : Nat := 65

/-- The internal minute: supervision after a generated boundary, in seconds (04 R74). -/
def internalMinute : Nat := 60

/-- A pulse nearer to the boundary reference than this many seconds takes no boundary (04 R73). -/
def earlyPulseThreshold : Nat := 30

/-- The largest count of a gap entry, and the largest RESUME distance, in half-hours (06 R104, 04 R84). -/
def gapLimit : Nat := 65535

/-- A free value: bits 20 to 27 of the 32-bit form of the null stamp. 12 R185 gives the year less 2000, and the null
stamp's year is 0 (assumption 5). -/
opaque nullStampYear : BitVec 8

/-- A free value: bits 4 to 7 of a read of 0x6B when the quality byte last written is the argument (12 R187 says they
are "not read" by the device; assumption 6). -/
opaque qualityReadback : Byte → BitVec 4

/-- A free value: bits 4 to 6 of a read of 0x78 when the byte last written is the argument (12 R188 gives them no
content; assumption 6). -/
opaque trackingReadback : Byte → BitVec 3

/-- A free value: the byte on MISO during a data byte of a write frame at a location. 12 R183 gives MISO for the header
and for read frames only (assumption 11). -/
opaque writeFrameMiso : Loc → Byte

end Sys2Proof.Config
end

