-- ==== Sys2Proof/Machine/State.lean ====
section
/-! DEFINITION. The state of the part as plain data, each piece under the manual's name, and the state of a delivered part
right after its first power-on. -/

namespace Sys2Proof.Machine

/-! ## Stamps (04 R68) -/

/-- Year, day of year and minute of day. The null stamp is 0, 0, 0 (02 R40). -/
structure MinuteStamp where
  year : Nat
  day : Nat
  minute : Nat
deriving DecidableEq, Repr

/-- Year, day of year and half-hour of day. -/
structure HalfHourStamp where
  year : Nat
  day : Nat
  hh : Nat
deriving DecidableEq, Repr

/-! ## The Period Clock (04) -/

/-- 04 R69; numbered in this order at location 0x02 (12 R182). -/
inductive ClockState where
  | unset
  | hold
  | run
  | stopped
deriving DecidableEq, Repr

/-- 04 R70; numbered in this order at location 0x03. -/
inductive TimeSource where
  | external
  | internal
deriving DecidableEq, Repr

/-- The minute in grace with its internal flag (04 R70). -/
structure GraceMinute where
  stamp : MinuteStamp
  internal : Bool
deriving DecidableEq, Repr

/-- The clock record (04 R67, R70). A running timer holds the second at which it expires. -/
structure Clock where
  state : ClockState
  position : MinuteStamp
  calendarSet : Bool
  graceSetting : Nat
  saved : Option MinuteStamp
  rangeEnd : Bool
  source : TimeSource
  inGrace : Option GraceMinute
  graceTimer : Option Nat
  supervision : Option Nat
  reference : Option Nat
deriving DecidableEq, Repr

/-! ## The Stack Monitor (03) -/

/-- 03 R48; numbered in this order in the STACK snapshot. -/
inductive StackState where
  | off
  | firing
  | abnormal
deriving DecidableEq, Repr

/-- The fired and abnormal marks of one minute (03 R56). -/
structure Marks where
  fired : Bool
  abnormal : Bool
deriving DecidableEq, Repr

/-- One stack input record (03 R48). A present declaration holds its declared-at stamp. -/
structure StackInput where
  enable : Bool
  debounce : Nat
  takenOn : Bool
  state : StackState
  declaration : Option MinuteStamp
  openMarks : Marks
  frozen : Option Marks
  timer : Option Nat
deriving DecidableEq, Repr

/-! ## The Minute Collector (02, 05) -/

/-- The result codes of a posting slot, numbered in this order (02 R46). -/
inductive ResultCode where
  | none
  | accepted
  | taken
  | discardedStopped
  | discardedCalendar
  | refusedClock
  | refusedChannel
  | refusedNotEmpty
  | refusedQuality
  | refusedStamp
  | refusedDuplicate
deriving DecidableEq, Repr

/-- One posting slot (02 R40). The quality byte is held as written; its code is bits 0 to 3. -/
structure PostingSlot where
  loaded : Bool
  year : Word16
  day : Word16
  minute : Word16
  value : BitVec 24
  quality : Byte
  code : ResultCode
deriving DecidableEq, Repr

/-- The two slots of a channel. -/
structure SlotPair where
  x : PostingSlot
  y : PostingSlot
deriving DecidableEq, Repr

/-- The half-hour accumulator of a channel (05 R92). -/
structure Accumulator where
  operating : Nat
  valid : Nat
  sum : Int
  missing : Nat
  service : Nat
  fault : Nat
  range : Nat
  oxygen : Nat
  abnormal : Bool
  internal : Bool
deriving DecidableEq, Repr

/-- The half-hour count of a stack (05 R96). -/
structure StackCount where
  fired : Nat
  abnormal : Nat
deriving DecidableEq, Repr

/-! ## The Result Queue (06) -/

/-- The class of a half-hour with the raw average of a VALID one (05 R98, R100). -/
inductive HalfHourClass where
  | excluded
  | valid (raw : Int)
  | invalid
deriving DecidableEq, Repr

/-- A RESULT entry (05 R100). -/
structure ResultEntry where
  slot : SlotNo
  stamp : HalfHourStamp
  cls : HalfHourClass
  abnormal : Bool
  internal : Bool
deriving DecidableEq, Repr

/-- A STACK entry (05 R101). -/
structure StackEntry where
  stack : StackNo
  stamp : HalfHourStamp
  fired : Nat
  abnormal : Nat
deriving DecidableEq, Repr

/-- A gap entry (06 R104). -/
structure GapEntry where
  start : HalfHourStamp
  count : Nat
  charged : List SlotNo
deriving DecidableEq, Repr

/-- The five kinds of queue entry (06 R103). -/
inductive Entry where
  | result (e : ResultEntry)
  | stack (e : StackEntry)
  | dayEnd (year day : Nat)
  | yearEnd (year : Nat)
  | gap (e : GapEntry)
deriving DecidableEq, Repr

/-! ## The Account Table (01) -/

/-- 01 R2; numbered in this order. -/
inductive AccountState where
  | free
  | draft
  | active
  | frozen
  | lapsed
deriving DecidableEq, Repr

/-- 01 R3. A FREE slot holds 0, 0, 0 (R4). -/
structure Key where
  stack : StackNo
  substance : Fin 16
  edition : Fin 256
deriving DecidableEq, Repr

/-- The percentile limit and the share, one optional pair (01 R5). -/
structure PctLimit where
  limit : Nat
  share : Nat
deriving DecidableEq, Repr

/-- Limits and settings (01 R5, R6). -/
structure Terms where
  short : Option Nat
  pct : Option PctLimit
  day : Option Nat
  ci : Nat
  maxInvalid : Nat
  allowance : Nat
deriving DecidableEq, Repr

/-- The ten marks, in the order of their bits (01 R13, 12 R185). -/
inductive Mark where
  | analyzerChanged
  | permitAmended
  | estimateUsed
  | note1
  | note2
  | allowanceExceeded
  | episodeUntracked
  | gapCharged
  | internalTime
  | priorUncertified
deriving DecidableEq, Repr

/-- A mark set: bit n stands for the n-th mark (12 R185). -/
abbrev MarkSet := BitVec 10

/-- The day part (01 R11). -/
structure DayPart where
  day : Nat
  hhValid : Nat
  hhInvalid : Nat
  hhExcluded : Nat
  hhAbnormal : Nat
  hhGap : Nat
  sum : Nat
  hhOverShort : Nat
deriving DecidableEq, Repr

/-- The max day average with its day. -/
structure MaxDay where
  average : Nat
  day : Nat
deriving DecidableEq, Repr

/-- The max validated half-hour with its stamp. -/
structure MaxHalfHour where
  value : Nat
  stamp : HalfHourStamp
deriving DecidableEq, Repr

/-- The year part (01 R12). -/
structure YearPart where
  hhValid : Nat
  hhInvalid : Nat
  hhExcluded : Nat
  hhAbnormal : Nat
  hhGap : Nat
  hhOverShort : Nat
  hhOverPct : Nat
  hhInternal : Nat
  daysValid : Nat
  daysInvalid : Nat
  daysExcluded : Nat
  daysAbnormal : Nat
  daysOver : Nat
  maxDay : Option MaxDay
  maxHalfHour : Option MaxHalfHour
  episodesEnded : Nat
  longestEpisode : Nat
deriving DecidableEq, Repr

/-- The current side (01 R10 to R13). -/
structure CurrentSide where
  day : DayPart
  year : YearPart
  marks : MarkSet
deriving DecidableEq, Repr

/-- The verdict's four findings: met or not met (01 R15). -/
structure Verdict where
  shortMet : Bool
  pctMet : Bool
  dayMet : Bool
  availabilityMet : Bool
deriving DecidableEq, Repr

/-- What a HELD closed side holds (01 R14). -/
structure ClosedSide where
  yearNo : Nat
  year : YearPart
  marks : MarkSet
  verdict : Verdict
deriving DecidableEq, Repr

/-- One account record (01 R2). `closed` is none when the closed side is EMPTY. -/
structure Account where
  state : AccountState
  key : Key
  source : Option ChannelNo
  terms : Terms
  cfgRev : Word16
  activatedAt : Option HalfHourStamp
  frozenAt : Option HalfHourStamp
  current : Option CurrentSide
  closed : Option ClosedSide
deriving DecidableEq, Repr

/-! ## The Channel Table (02) -/

/-- 02 R30; numbered in this order. -/
inductive ChannelState where
  | unused
  | idle
  | collecting
deriving DecidableEq, Repr

/-- The oxygen source with the reference oxygen: the one is present exactly when the other is (02 R29). -/
structure OxygenTerm where
  source : ChannelNo
  reference : Nat
deriving DecidableEq, Repr

/-- One channel record (02 R29). -/
structure Channel where
  state : ChannelState
  stack : StackNo
  substance : Fin 16
  low : Int
  high : Int
  minMinutes : Nat
  oxygen : Option OxygenTerm
  link : Option SlotNo
deriving DecidableEq, Repr

/-! ## Stack allowance records (03 R58) -/

/-- The STOP demand, numbered in this order in the STACK snapshot (12 R186). -/
inductive StopDemand where
  | released
  | episode
  | annual
deriving DecidableEq, Repr

/-- The last STACK entry absorbed. -/
structure LastHalfHour where
  stamp : HalfHourStamp
  fired : Nat
  abnormal : Nat
deriving DecidableEq, Repr

/-- The previous year's figures. -/
structure PreviousYear where
  abnormalHh : Nat
  episodes : Nat
  longestRun : Nat
  exceeded : Bool
deriving DecidableEq, Repr

/-- One stack allowance record (03 R58). -/
structure StackAllowance where
  episodeAllowance : Nat
  annualAllowance : Nat
  runHh : Nat
  yearAbnHh : Nat
  episodesYear : Nat
  longestRun : Nat
  exceeded : Bool
  demand : StopDemand
  last : Option LastHalfHour
  previous : PreviousYear
deriving DecidableEq, Repr

/-! ## The Episode List (08) -/

/-- Kind and subject of an episode: EXCEEDANCE of an account, ABNORMAL_OPERATION of a stack (08 R139). -/
inductive Subject where
  | exceedance (slot : SlotNo)
  | abnormalOperation (stack : StackNo)
deriving DecidableEq, Repr

/-- One episode (08 R139). It is OPEN while `ended` is absent. -/
structure Episode where
  number : Nat
  subject : Subject
  start : HalfHourStamp
  ended : Option HalfHourStamp
  length : Nat
  peak : Option Nat
  acknowledged : Bool
  cause : Option Nat
deriving DecidableEq, Repr

/-! ## The engine (07 R114, R115) -/

/-- What the engine takes as one claim. -/
inductive Claim where
  | entry
  | request (port : Port)
deriving DecidableEq, Repr

/-- The three owners of requests (10 R166). -/
inductive Owner where
  | engine
  | monitor
  | clock
deriving DecidableEq, Repr

/-- The kind of the last claim completed. -/
inductive LastClaim where
  | none
  | entry
  | request
deriving DecidableEq, Repr

/-! ## Ports (10, 12) -/

/-- The outcomes of a request, numbered from 1 in this order (10 R174). POWER is shown by the submit status only. -/
inductive ReqOutcome where
  | done
  | unknown
  | level
  | argument
  | state
  | keyTaken
  | noSpace
  | inUse
  | stale
  | notFound
  | clockHeld
  | backlog
  | power
deriving DecidableEq, Repr

/-- A latched request: the fields of the request block at GO and the effective level (10 R167, R172). -/
structure Request where
  code : Byte
  requestedLevel : Nat
  level : Nat
  target : Nat
  stack : Nat
  substance : Nat
  edition : Nat
  expected : Option Word16
  args : Vector Word32 6
deriving DecidableEq, Repr

/-- 10 R167; numbered in this order at 0x0C. -/
inductive AreaState where
  | idle
  | pending
  | done
deriving DecidableEq, Repr

/-- The response block (10 R171). Before any outcome the outcome field reads 0. -/
structure Response where
  outcome : Option ReqOutcome
  code : Byte
  values : Vector Word32 6
deriving DecidableEq, Repr

/-- A request area (10 R167). -/
structure RequestArea where
  state : AreaState
  busy : Bool
  latched : Option Request
  response : Response
deriving DecidableEq, Repr

/-- The ACCOUNT snapshot (09 R157). -/
structure AccountSnapshot where
  slot : SlotNo
  account : Account
  linked : Option ChannelNo
  episodes : Nat
  openNumber : Option Nat
deriving DecidableEq, Repr

/-- The CHANNEL snapshot (02 R39). -/
structure ChannelSnapshot where
  channel : ChannelNo
  record : Channel
  namedBy : Nat
  draft : Option SlotNo
deriving DecidableEq, Repr

/-- The STACK snapshot (03 R65). -/
structure StackSnapshot where
  stack : StackNo
  input : StackInput
  line : Bool
  allowance : StackAllowance
deriving DecidableEq, Repr

/-- What an EPISODE snapshot shows of its subject (08 R152). -/
inductive SubjectShown where
  | account (key : Key) (state : AccountState)
  | stack (runHh : Nat) (demand : StopDemand)
deriving DecidableEq, Repr

/-- The EPISODE snapshot (08 R152). -/
structure EpisodeSnapshot where
  episode : Episode
  position : Nat
  count : Nat
  counter : Nat
  shown : SubjectShown
deriving DecidableEq, Repr

/-- A view's kind with its snapshot; the kinds are numbered in this order at 0x50 (09 R155). -/
inductive Snapshot where
  | none
  | account (snap : AccountSnapshot)
  | channel (snap : ChannelSnapshot)
  | stack (snap : StackSnapshot)
  | episode (snap : EpisodeSnapshot)
deriving DecidableEq, Repr

/-- A port's view (09 R155, 12 R186). -/
structure View where
  snapshot : Snapshot
  pointer : Nat
  held : Byte
deriving DecidableEq, Repr

/-- What each port has for itself (12, opening words; R182, R189). -/
structure PortCommon where
  block : Vector Byte 31
  area : RequestArea
  view : View
  capture : MinuteStamp
deriving DecidableEq, Repr

/-- A port A frame: waiting for its header, or with direction and location (12 R183). -/
inductive Frame where
  | header
  | data (read : Bool) (loc : Loc)
deriving DecidableEq, Repr

/-- Port A (12 R183, R187, R189). `miso` is the byte driven on MISO, none while it is not driven. -/
structure PortA where
  common : PortCommon
  csnLow : Bool
  frame : Option Frame
  miso : Option Byte
  channelSelect : Byte
  slotSelect : Byte
deriving DecidableEq, Repr

/-- 12 R184; numbered in this order at 0x0D. -/
inductive Phase where
  | selector
  | value
deriving DecidableEq, Repr

/-- Port B (12 R184, R189): `sending` is the answer on TXD, `answers` those waiting behind it; `lineBreak` is set while
RXD is held low after a break. -/
structure PortB where
  common : PortCommon
  phase : Phase
  pointer : Loc
  sending : Option Byte
  answers : List Byte
  lineBreak : Bool
deriving DecidableEq, Repr

/-! ## The Event Unit (11) -/

/-- The sixteen event sources, in the order of their numbers 0 to 15 (11 R175). -/
inductive EventSource where
  | halfHourClosed
  | requestDone
  | inspection
  | minuteIncomplete
  | postingRefused
  | feed
  | dayClosed
  | priorUncertified
  | yearClosed
  | backlog
  | allowance
  | abnormalOpened
  | shortOpened
  | listFull
  | clockLost
  | stop
deriving DecidableEq, Repr

/-- A source record (11 R175). -/
structure SourceRecord where
  enable : Bool
  pending : Bool
  masked : Bool
  inService : Bool
  detail : Word16
deriving DecidableEq, Repr

/-- The Event Unit (11 R175, 12 R188, R189). `lastAck` is none while the record shows not present; its detail is then 0.
`control` is the byte last written to 0x78, of which bits 0 to 3 are the vector base and bit 7 the tracking switch. -/
structure EventUnit where
  sources : Vector SourceRecord 16
  control : Byte
  detailPointer : Fin 17
  lastAck : Option Word16
  clearHeld : Byte
  serviceHeld : Byte
  highNext : Bool
  detailHeld : Byte
deriving DecidableEq, Repr

/-! ## The part -/

/-- Running, in the orderly stop, or stopped (04 R81 to R83). -/
inductive PartPhase where
  | running
  | stopping
  | stopped
deriving DecidableEq, Repr

/-- The whole state of the part and the commands waiting to be taken, the first at the front. `handOrder` names the owners
that have a request in hand, in the order in which they took it (10 R170; assumption 25). -/
structure State where
  now : Nat
  part : PartPhase
  supplyGood : Bool
  rstnHigh : Bool
  clock : Clock
  inputs : Vector StackInput 4
  feedLines : Vector Bool 4
  slots : Vector SlotPair 48
  accumulators : Vector Accumulator 48
  counts : Vector StackCount 4
  queue : List Entry
  accounts : Vector Account 128
  channels : Vector Channel 48
  allowances : Vector StackAllowance 4
  episodes : List Episode
  episodeCounter : Nat
  inFlight : Option Claim
  lastClaim : LastClaim
  monitorHand : Option Port
  clockHand : Option Port
  handOrder : List Owner
  portA : PortA
  portB : PortB
  events : EventUnit
  pending : List Instr
deriving DecidableEq, Repr

/-- Why a step can end in a fault. No command ends in one: a state that the manual rules out leaves its entry uncounted
(assumption 18), and nothing else in the manual is without an effect. -/
inductive Fault
deriving DecidableEq, Repr

/-- Why a step can be refused. -/
inductive Refusal where
  /-- A command whose meaning is not written. Raised by no arm of `exec`. Safe. -/
  | notModelled (mnemonic : String)
deriving DecidableEq, Repr

/-! ## Reset values -/

/-- The null stamp (02 R40, 04 R67). -/
def MinuteStamp.null : MinuteStamp := ⟨0, 0, 0⟩

/-- The clock of a delivered part (04 R67, R70). -/
def Clock.reset : Clock :=
  { state := .unset, position := .null, calendarSet := false, graceSetting := 10, saved := none, rangeEnd := false,
    source := .external, inGrace := none, graceTimer := none, supervision := none, reference := none }

/-- The input record of a delivered part (03 R48). -/
def StackInput.reset : StackInput :=
  { enable := true, debounce := 3, takenOn := false, state := .off, declaration := none, openMarks := ⟨false, false⟩,
    frozen := none, timer := none }

/-- A posting slot after power-on or restart (02 R40). -/
def PostingSlot.reset : PostingSlot :=
  { loaded := false, year := 0, day := 0, minute := 0, value := 0, quality := 0, code := .none }

/-- The two slots of a channel after power-on or restart (02 R40). -/
def SlotPair.reset : SlotPair := ⟨.reset, .reset⟩

/-- An empty accumulator (05 R92). -/
def Accumulator.empty : Accumulator :=
  { operating := 0, valid := 0, sum := 0, missing := 0, service := 0, fault := 0, range := 0, oxygen := 0,
    abnormal := false, internal := false }

/-- A stack count restarted at zero (05 R96). -/
def StackCount.zero : StackCount := ⟨0, 0⟩

/-- The default settings with no limits (01 R4). -/
def Terms.default : Terms :=
  { short := none, pct := none, day := none, ci := 0, maxInvalid := 5, allowance := 10 }

/-- A FREE slot (01 R4). -/
def Account.free : Account :=
  { state := .free, key := ⟨0, 0, 0⟩, source := none, terms := .default, cfgRev := 0, activatedAt := none,
    frozenAt := none, current := none, closed := none }

/-- An UNUSED channel record (02 R29). -/
def Channel.unused : Channel :=
  { state := .unused, stack := 0, substance := 0, low := 0, high := 0, minMinutes := 20, oxygen := none, link := none }

/-- A delivered allowance record (03 R58). -/
def StackAllowance.reset : StackAllowance :=
  { episodeAllowance := 8, annualAllowance := 120, runHh := 0, yearAbnHh := 0, episodesYear := 0, longestRun := 0,
    exceeded := false, demand := .released, last := none, previous := ⟨0, 0, 0, false⟩ }

/-- A request area after power-on or restart (10 R167). -/
def RequestArea.reset : RequestArea :=
  { state := .idle, busy := false, latched := none,
    response := { outcome := none, code := 0, values := Vector.replicate 6 0 } }

/-- A view after power-on or restart (09 R155, 12 R189). -/
def View.reset : View := { snapshot := .none, pointer := 0, held := 0 }

/-- A port's own state after power-on or restart (12 R189). -/
def PortCommon.reset : PortCommon :=
  { block := Vector.replicate 31 0, area := .reset, view := .reset, capture := .null }

/-- Port A after power-on or restart with CSN high (12 R189). -/
def PortA.reset : PortA :=
  { common := .reset, csnLow := false, frame := none, miso := none, channelSelect := 0, slotSelect := 0 }

/-- Port B after power-on or restart with RXD high (12 R189). -/
def PortB.reset : PortB :=
  { common := .reset, phase := .selector, pointer := 0, sending := none, answers := [], lineBreak := false }

/-- A source record after power-on or restart (11 R175). -/
def SourceRecord.reset : SourceRecord :=
  { enable := false, pending := false, masked := false, inService := false, detail := 0 }

/-- The Event Unit after power-on or restart (11 R175, 12 R189). The held high byte of the detail data has no value of the
manual's there; the model takes 0, which no read shows, since the byte phase returns to the low byte (DESIGN CHOICE,
assumption 26). -/
def EventUnit.reset : EventUnit :=
  { sources := Vector.replicate 16 .reset, control := 0, detailPointer := 0, lastAck := none, clearHeld := 0,
    serviceHeld := 0, highNext := false, detailHeld := 0 }

/-- A delivered part right after its first power-on, with its FEED lines off, RSTN, CSN and RXD high and the supply good
(assumptions 15, 16), and no command waiting. -/
def State.reset : State :=
  { now := 0, part := .running, supplyGood := true, rstnHigh := true, clock := .reset,
    inputs := Vector.replicate 4 .reset, feedLines := Vector.replicate 4 false,
    slots := Vector.replicate 48 .reset, accumulators := Vector.replicate 48 .empty,
    counts := Vector.replicate 4 .zero, queue := [], accounts := Vector.replicate 128 .free,
    channels := Vector.replicate 48 .unused, allowances := Vector.replicate 4 .reset, episodes := [],
    episodeCounter := 1, inFlight := none, lastClaim := .none, monitorHand := none, clockHand := none, handOrder := [],
    portA := .reset, portB := .reset, events := .reset, pending := [] }

end Sys2Proof.Machine
end

