-- ==== Sys2Proof/Machine/Tables.lean ====
section
/-! DEFINITION. Helpers over fixed tables, and the rounding rule (05 R90). -/

namespace Sys2Proof.Machine

/-- The table whose i-th record is `f i`. -/
def tabulate {n : Nat} {α : Type} (f : Fin n → α) : Vector α n := ⟨⟨List.ofFn f⟩, by simp⟩

/-- The table with the record at `i` replaced by `x`. -/
def put {n : Nat} {α : Type} (v : Vector α n) (i : Fin n) (x : α) : Vector α n := v.set i.1 x i.2

/-- Runs `f` over the indices 0 to n − 1 in ascending order. -/
def forEach (n : Nat) {σ : Type} (f : Fin n → σ → σ) (s : σ) : σ := (List.finRange n).foldl (fun t i => f i t) s

/-- The lowest index that satisfies `p`. -/
def lowest {n : Nat} (p : Fin n → Bool) : Option (Fin n) := (List.finRange n).find? p

/-- The highest index that satisfies `p`. -/
def highest {n : Nat} (p : Fin n → Bool) : Option (Fin n) := (List.finRange n).reverse.find? p

/-- The number of indices that satisfy `p`. -/
def countOf {n : Nat} (p : Fin n → Bool) : Nat := (List.finRange n).countP p

/-- Whether some index satisfies `p`. -/
def anyOf {n : Nat} (p : Fin n → Bool) : Bool := (List.finRange n).any p

/-- A number as an index below n, when it is one. -/
def index? (n k : Nat) : Option (Fin n) := if h : k < n then some ⟨k, h⟩ else none

/-- Division to the nearest integer, exact halves away from zero (05 R90). -/
def roundDiv (a : Int) (b : Nat) : Int :=
  let q : Nat := (2 * a.natAbs + b) / (2 * b)
  if a < 0 then -(q : Int) else q

end Sys2Proof.Machine
end

