-- ==== Sys2Proof/Machine/Calendar.lean ====
section
/-! DEFINITION. The calendar: days of a year, stamps, their order and the half-hour count (04 R67, R68). -/

namespace Sys2Proof.Machine

/-- 366 when divisible by 4 and not by 100, or by 400; otherwise 365 (04 R67). -/
def daysInYear (y : Nat) : Nat := if (y % 4 = 0 ∧ y % 100 ≠ 0) ∨ y % 400 = 0 then 366 else 365

/-- Whether year, day and minute are a calendar minute of 2000 to 2199 (04 R79 check 1). -/
def calendarMinute (y d m : Int) : Bool :=
  decide (2000 ≤ y) && decide (y ≤ 2199) && decide (1 ≤ d) && decide (d ≤ daysInYear y.toNat) && decide (0 ≤ m) &&
    decide (m ≤ 1439)

/-- The days in the n years from 2000 (04 R68). -/
def daysFrom2000 : Nat → Nat
  | 0 => 0
  | n + 1 => daysFrom2000 n + daysInYear (2000 + n)

/-- The half-hour count of a stamp (04 R68). -/
def HalfHourStamp.count (h : HalfHourStamp) : Nat := 48 * daysFrom2000 (h.year - 2000) + 48 * (h.day - 1) + h.hh

/-- The half-hour holding a minute (04 R68). -/
def MinuteStamp.halfHour (m : MinuteStamp) : HalfHourStamp := ⟨m.year, m.day, m.minute / 30⟩

/-- Whether a minute is the last of its half-hour (04 R72). -/
def MinuteStamp.endsHalfHour (m : MinuteStamp) : Bool := m.minute % 30 == 29

/-- The next minute (04 R67). -/
def MinuteStamp.next (m : MinuteStamp) : MinuteStamp :=
  if m.minute < 1439 then ⟨m.year, m.day, m.minute + 1⟩
  else if m.day < daysInYear m.year then ⟨m.year, m.day + 1, 0⟩
  else ⟨m.year + 1, 1, 0⟩

/-- The next half-hour in calendar order. -/
def HalfHourStamp.next (h : HalfHourStamp) : HalfHourStamp :=
  if h.hh < 47 then ⟨h.year, h.day, h.hh + 1⟩
  else if h.day < daysInYear h.year then ⟨h.year, h.day + 1, 0⟩
  else ⟨h.year + 1, 1, 0⟩

/-- Whether one minute stamp is earlier than another: by year, then day, then minute (02 R40, 04 R68). -/
def MinuteStamp.before (x y : MinuteStamp) : Bool :=
  decide (x.year < y.year) || (x.year == y.year && (decide (x.day < y.day) || (x.day == y.day && decide (x.minute < y.minute))))

/-- The last minute of the calendar range (04 R76). -/
def lastMinute : MinuteStamp := ⟨2199, 365, 1439⟩

/-- The stamp of a posting slot's record. -/
def PostingSlot.stamp (p : PostingSlot) : MinuteStamp := ⟨p.year.toNat, p.day.toNat, p.minute.toNat⟩

/-- The pending half-hour: that of the minute in grace, else that of the open minute (01 R9, 04 R68). -/
def pendingHalfHour (c : Clock) : HalfHourStamp :=
  match c.inGrace with
  | some g => g.stamp.halfHour
  | none => c.position.halfHour

end Sys2Proof.Machine
end

