-- ==== Sys2Proof/Machine/Operands.lean ====
section
/-! DEFINITION. Operand forms: the request codes, the arguments of a latched request and the forms of returned values
(10 R166, R172, R174, 12 R185). -/

namespace Sys2Proof.Machine

/-- The 27 requests (10 R166). -/
inductive RequestCode where
  | createAccount
  | setLimits
  | linkSource
  | activate
  | amend
  | reassign
  | retire
  | deleteDraft
  | certify
  | mark
  | configureChannel
  | startChannel
  | stopChannel
  | releaseChannel
  | readChannel
  | setAllowance
  | readStack
  | setFeedInput
  | declareAbnormal
  | endAbnormal
  | ackEpisode
  | readEpisode
  | find
  | readAccount
  | setCalendar
  | setGrace
  | resume
deriving DecidableEq, Repr

/-- All requests, in the table's order. -/
def RequestCode.all : List RequestCode :=
  [.createAccount, .setLimits, .linkSource, .activate, .amend, .reassign, .retire, .deleteDraft, .certify, .mark,
   .configureChannel, .startChannel, .stopChannel, .releaseChannel, .readChannel, .setAllowance, .readStack,
   .setFeedInput, .declareAbnormal, .endAbnormal, .ackEpisode, .readEpisode, .find, .readAccount, .setCalendar,
   .setGrace, .resume]

/-- The code by which a request is named (10 R166). -/
def RequestCode.byte : RequestCode → Byte
  | .createAccount => 0x01
  | .setLimits => 0x02
  | .linkSource => 0x03
  | .activate => 0x04
  | .amend => 0x05
  | .reassign => 0x06
  | .retire => 0x07
  | .deleteDraft => 0x08
  | .certify => 0x09
  | .mark => 0x0A
  | .configureChannel => 0x10
  | .startChannel => 0x11
  | .stopChannel => 0x12
  | .releaseChannel => 0x13
  | .readChannel => 0x14
  | .setAllowance => 0x18
  | .readStack => 0x19
  | .setFeedInput => 0x20
  | .declareAbnormal => 0x21
  | .endAbnormal => 0x22
  | .ackEpisode => 0x28
  | .readEpisode => 0x29
  | .find => 0x2C
  | .readAccount => 0x2D
  | .setCalendar => 0x30
  | .setGrace => 0x31
  | .resume => 0x32

/-- The owner of a request (10 R166). -/
def RequestCode.owner : RequestCode → Owner
  | .setFeedInput | .declareAbnormal | .endAbnormal => .monitor
  | .setCalendar | .setGrace | .resume => .clock
  | .createAccount | .setLimits | .linkSource | .activate | .amend | .reassign | .retire | .deleteDraft | .certify | .mark
  | .configureChannel | .startChannel | .stopChannel | .releaseChannel | .readChannel | .setAllowance | .readStack
  | .ackEpisode | .readEpisode | .find | .readAccount => .engine

/-- The level a request requires (10 R166). -/
def RequestCode.requiredLevel : RequestCode → Nat
  | .activate | .amend | .retire | .certify | .setAllowance => 0
  | .createAccount | .setLimits | .linkSource | .reassign | .deleteDraft | .configureChannel | .startChannel
  | .stopChannel | .releaseChannel | .setFeedInput | .setCalendar | .setGrace | .resume => 1
  | .mark | .readChannel | .readStack | .declareAbnormal | .endAbnormal | .ackEpisode | .readEpisode | .find
  | .readAccount => 2

/-- The request a code byte names, none when the code is unknown (10 R166). -/
def RequestCode.ofByte (b : Byte) : Option RequestCode := RequestCode.all.find? (fun c => c.byte == b)

/-- The base level of a port (10 R165). -/
def baseLevel : Port → Nat
  | .a => 1
  | .b => 0

/-- The outcome's number (10 R174). -/
def ReqOutcome.number : ReqOutcome → Byte
  | .done => 1
  | .unknown => 2
  | .level => 3
  | .argument => 4
  | .state => 5
  | .keyTaken => 6
  | .noSpace => 7
  | .inUse => 8
  | .stale => 9
  | .notFound => 10
  | .clockHeld => 11
  | .backlog => 12
  | .power => 13

/-! ## Numbering of named values (12 R181: from 0 in the order of their rule) -/

def ClockState.number : ClockState → Nat
  | .unset => 0
  | .hold => 1
  | .run => 2
  | .stopped => 3

def StackState.number : StackState → Nat
  | .off => 0
  | .firing => 1
  | .abnormal => 2

def AccountState.number : AccountState → Nat
  | .free => 0
  | .draft => 1
  | .active => 2
  | .frozen => 3
  | .lapsed => 4

def ChannelState.number : ChannelState → Nat
  | .unused => 0
  | .idle => 1
  | .collecting => 2

def ResultCode.number : ResultCode → Nat
  | .none => 0
  | .accepted => 1
  | .taken => 2
  | .discardedStopped => 3
  | .discardedCalendar => 4
  | .refusedClock => 5
  | .refusedChannel => 6
  | .refusedNotEmpty => 7
  | .refusedQuality => 8
  | .refusedStamp => 9
  | .refusedDuplicate => 10

/-- The STOP demand as at offset 25 of the STACK snapshot (12 R186). -/
def StopDemand.number : StopDemand → Nat
  | .released => 0
  | .episode => 1
  | .annual => 2

/-- Whether the demand is asserted, numbered as released 0, asserted 1 (03 R63; assumption 8). -/
def StopDemand.asserted : StopDemand → Bool
  | .released => false
  | .episode | .annual => true

/-- The reason of an asserted demand, EPISODE 0 and ANNUAL 1 (03 R63; assumption 8). -/
def StopDemand.reason : StopDemand → Nat
  | .released => 0
  | .episode => 0
  | .annual => 1

def Subject.kind : Subject → Nat
  | .exceedance _ => 0
  | .abnormalOperation _ => 1

def Subject.index : Subject → Nat
  | .exceedance slot => slot
  | .abnormalOperation stack => stack

/-! ## Arguments (10 R172, 12 R185) -/

/-- The absent, clear or NONE indication (12 R185). -/
def absentWord : Word32 := 0x80000000#32

/-- An argument read as a value, none for the absent indication. -/
def argValue (w : Word32) : Option Int := if w = absentWord then none else some w.toInt

/-- Argument n of a request, n from 1 to 6, as its 32 bits. -/
def Request.word (r : Request) (n : Nat) : Word32 := r.args.toList.getD (n - 1) 0

/-- Argument n as a value, none when absent. -/
def Request.arg (r : Request) (n : Nat) : Option Int := argValue (r.word n)

/-- Argument n when it is a value from lo to hi. The absent indication is none as well: a request whose rule expects a value
refuses it with ARGUMENT (10 R172), and at the place of the argument's range check, which is the model's (DESIGN CHOICE,
assumption 27). -/
def Request.argIn (r : Request) (n : Nat) (lo hi : Int) : Option Int :=
  match r.arg n with
  | some v => if lo ≤ v ∧ v ≤ hi then some v else none
  | none => none

/-- Argument n when it is a value from lo to hi, lo not below 0, as a natural number. -/
def Request.natArg (r : Request) (n lo hi : Nat) : Option Nat := (r.argIn n lo hi).map Int.toNat

/-! ## Returned values (12 R185) -/

/-- A number as a returned value. -/
def num (n : Int) : Word32 := BitVec.ofInt 32 n

/-- An optional number as a returned value, NONE when absent. -/
def numOr : Option Nat → Word32
  | some n => num n
  | none => absentWord

/-- Bits 20 to 27 of a stamp: the year less 2000; open for the null stamp (assumption 5). -/
def stampYear (y : Nat) : BitVec 8 := if 2000 ≤ y then BitVec.ofNat 8 (y - 2000) else Config.nullStampYear

/-- The 32-bit form of a stamp: minute or half-hour in bits 0 to 10, day in bits 11 to 19, year in bits 20 to 27. -/
def stampWord (year day part : Nat) : Word32 :=
  (0#4 ++ stampYear year) ++ (BitVec.ofNat 9 day ++ BitVec.ofNat 11 part)

def MinuteStamp.word (m : MinuteStamp) : Word32 := stampWord m.year m.day m.minute

def HalfHourStamp.word (h : HalfHourStamp) : Word32 := stampWord h.year h.day h.hh

/-- A mark set as a returned value. -/
def MarkSet.word (m : MarkSet) : Word32 := m.setWidth 32

/-- Returned values 1 to 6 with the values beyond the last listed at zero (10 R171). -/
def padValues (l : List Word32) : Vector Word32 6 := tabulate (fun i => l.getD i.1 0)

/-! ## Marks (01 R13) -/

/-- The bit of a mark (12 R185). -/
def Mark.bit : Mark → MarkSet
  | .analyzerChanged => 0x001
  | .permitAmended => 0x002
  | .estimateUsed => 0x004
  | .note1 => 0x008
  | .note2 => 0x010
  | .allowanceExceeded => 0x020
  | .episodeUntracked => 0x040
  | .gapCharged => 0x080
  | .internalTime => 0x100
  | .priorUncertified => 0x200

/-- The set with one mark added. -/
def MarkSet.add (m : MarkSet) (k : Mark) : MarkSet := m ||| k.bit

/-- Whether a 32-bit set names plant marks only: ANALYZER_CHANGED, PERMIT_AMENDED, ESTIMATE_USED, NOTE_1, NOTE_2. -/
def plantMarksOnly (w : Word32) : Bool := w &&& 0xFFFFFFE0#32 == 0

/-- Whether a 32-bit set holds a mark that needs level 1 (09 R163). -/
def holdsWeightyMark (w : Word32) : Bool := w &&& 0x7#32 != 0

/-! ## The request block (12 R185) -/

/-- The byte at window location 0x10 + i of a port's request block. -/
def blockByte (b : Vector Byte 31) (i : Nat) : Byte := b.toList.getD i 0

/-- Two bytes, lowest first. -/
def word16At (b : Vector Byte 31) (i : Nat) : Word16 := blockByte b (i + 1) ++ blockByte b i

/-- Four bytes, lowest first. -/
def word32At (b : Vector Byte 31) (i : Nat) : Word32 := word16At b (i + 2) ++ word16At b i

/-- The request a block holds, latched for a port with its effective level (10 R165, R168, 12 R185). -/
def latch (p : Port) (b : Vector Byte 31) : Request :=
  let control := blockByte b 1
  let requested := (control.extractLsb' 0 2).toNat
  { code := blockByte b 0
    requestedLevel := requested
    level := max requested (baseLevel p)
    target := (blockByte b 2).toNat
    stack := ((blockByte b 3).extractLsb' 4 4).toNat
    substance := ((blockByte b 3).extractLsb' 0 4).toNat
    edition := (blockByte b 4).toNat
    expected := if control.msb then some (word16At b 5) else none
    args := tabulate (fun i => word32At b (7 + 4 * i.1)) }

/-! ## Bytes of multi-byte values, lowest first (12 R181) -/

/-- The n lowest bytes of a number. -/
def natBytes : Nat → Nat → List Byte
  | 0, _ => []
  | n + 1, v => BitVec.ofNat 8 v :: natBytes n (v / 256)

/-- The n bytes of a bit vector. -/
def bitBytes {w : Nat} (n : Nat) (v : BitVec w) : List Byte := natBytes n v.toNat

/-- n bytes at all ones: the absent form of the snapshots (12 R186). -/
def onesBytes (n : Nat) : List Byte := List.replicate n 0xFF

/-- An optional number in n bytes, all ones when absent. -/
def natBytesOr (n : Nat) : Option Nat → List Byte
  | some v => natBytes n v
  | none => onesBytes n

/-- A yes-or-no field: 1 for yes. -/
def boolByte (b : Bool) : Byte := if b then 1 else 0

end Sys2Proof.Machine
end

