-- ==== Sys2Proof/Machine/Flags.lean ====
section
/-! DEFINITION. The Event Unit: recording, presentation, INT, acknowledgement and clearing (11 R175 to R180, 12 R188). -/

namespace Sys2Proof.Machine

/-- A source's number, its priority (11 R175). -/
def EventSource.number : EventSource → Fin 16
  | .halfHourClosed => 0
  | .requestDone => 1
  | .inspection => 2
  | .minuteIncomplete => 3
  | .postingRefused => 4
  | .feed => 5
  | .dayClosed => 6
  | .priorUncertified => 7
  | .yearClosed => 8
  | .backlog => 9
  | .allowance => 10
  | .abnormalOpened => 11
  | .shortOpened => 12
  | .listFull => 13
  | .clockLost => 14
  | .stop => 15

/-- Bits 0 to 3 of 0x78 (12 R188). -/
def EventUnit.vectorBase (u : EventUnit) : BitVec 4 := u.control.extractLsb' 0 4

/-- Bit 7 of 0x78 (12 R188). -/
def EventUnit.tracking (u : EventUnit) : Bool := u.control.msb

/-- Whether source i is above every source in service (11 R177). -/
def EventUnit.aboveService (u : EventUnit) (i : Fin 16) : Bool :=
  !anyOf (fun j : Fin 16 => (u.sources.get j).inService && decide (i ≤ j))

/-- 11 R177. -/
def EventUnit.presentable (u : EventUnit) (i : Fin 16) : Bool :=
  let r := u.sources.get i
  r.pending && !r.masked && (!u.tracking || u.aboveService i)

/-- INT is asserted while at least one source is presentable (11 R177). -/
def EventUnit.intAsserted (u : EventUnit) : Bool := anyOf u.presentable

/-- An event of a source: remembered when the source is enabled, otherwise not (11 R176). -/
def EventUnit.record (u : EventUnit) (e : EventSource) (detail : Nat) : EventUnit :=
  let r := u.sources.get e.number
  if r.enable then
    { u with sources := put u.sources e.number { r with pending := true, detail := BitVec.ofNat 16 detail } }
  else u

/-- The highest-numbered presentable source (11 R178). -/
def EventUnit.top (u : EventUnit) : Option (Fin 16) := highest u.presentable

/-- A vector read: the byte returned and the unit afterwards (11 R178, 12 R188). -/
def EventUnit.acknowledge (u : EventUnit) : Byte × EventUnit :=
  match u.top with
  | some i =>
    let r := u.sources.get i
    (u.vectorBase ++ BitVec.ofNat 4 i.1,
      { u with
        sources := put u.sources i { r with pending := false, inService := r.inService || u.tracking }
        lastAck := some r.detail
        detailPointer := 16
        highNext := false })
  | none => (u.vectorBase ++ 0#4, { u with lastAck := none })

/-- Bit i of a byte that stands for sources 8 · half to 8 · half + 7. -/
def halfBit (half : Nat) (v : Byte) (i : Fin 16) : Option Bool :=
  if i.1 / 8 = half then some (v.getLsbD (i.1 % 8)) else none

/-- An enable byte, low (half 0) or high (half 1) (11 R176, 12 R188). -/
def EventUnit.writeEnable (u : EventUnit) (half : Nat) (v : Byte) : EventUnit :=
  { u with sources := tabulate (fun i =>
      let r := u.sources.get i
      { r with enable := (halfBit half v i).getD r.enable }) }

/-- A mask byte, low (half 0) or high (half 1) (11 R177, 12 R188). -/
def EventUnit.writeMask (u : EventUnit) (half : Nat) (v : Byte) : EventUnit :=
  { u with sources := tabulate (fun i =>
      let r := u.sources.get i
      { r with masked := (halfBit half v i).getD r.masked }) }

/-- 0x78: vector base and tracking switch (11 R175, R179, 12 R188). -/
def EventUnit.writeControl (u : EventUnit) (v : Byte) : EventUnit := { u with control := v }

/-- 0x7B: pending-clear for the held and the written byte (11 R179, 12 R188). -/
def EventUnit.clearPending (u : EventUnit) (v : Byte) : EventUnit :=
  let named : Word16 := v ++ u.clearHeld
  { u with
    sources := tabulate (fun i =>
      let r := u.sources.get i
      { r with pending := r.pending && !named.getLsbD i.1 })
    clearHeld := 0 }

/-- 0x7D: end-of-service for the held and the written byte (11 R179, 12 R188). -/
def EventUnit.endService (u : EventUnit) (v : Byte) : EventUnit :=
  let named : Word16 := v ++ u.serviceHeld
  { u with
    sources := tabulate (fun i =>
      let r := u.sources.get i
      { r with inService := r.inService && !named.getLsbD i.1 })
    serviceHeld := 0 }

/-- 0x7E: the detail pointer, 0 to 16; another value is ignored, and the byte phase then stays (11 R180, 12 R188;
assumption 21). -/
def EventUnit.writeDetailPointer (u : EventUnit) (v : Byte) : EventUnit :=
  match index? 17 v.toNat with
  | some i => { u with detailPointer := i, highNext := false }
  | none => u

/-- The detail that the detail pointer selects (11 R180). -/
def EventUnit.selectedDetail (u : EventUnit) : Word16 :=
  match index? 16 u.detailPointer.1 with
  | some i => (u.sources.get i).detail
  | none => u.lastAck.getD 0

/-- A read of 0x7F: low byte with the high byte held, then the held byte with the pointer moving on (12 R188). -/
def EventUnit.readDetail (u : EventUnit) : Byte × EventUnit :=
  if u.highNext then
    (u.detailHeld,
      { u with highNext := false, detailPointer := if u.detailPointer.1 = 16 then 0 else u.detailPointer + 1 })
  else
    let d := u.selectedDetail
    (d.extractLsb' 0 8, { u with highNext := true, detailHeld := d.extractLsb' 8 8 })

/-- Eight bits of a set of sources: bit i for source 8 · half + i (12 R188). -/
def EventUnit.setByte (u : EventUnit) (f : SourceRecord → Bool) (half : Nat) : Byte :=
  (List.finRange 16).foldl
    (fun acc i => if i.1 / 8 = half && f (u.sources.get i) then acc ||| (1#8 <<< (i.1 % 8)) else acc) 0

/-- Raises an event of a block (11 R176). -/
def raiseEvent (e : EventSource) (detail : Nat) (s : State) : State := { s with events := s.events.record e detail }

end Sys2Proof.Machine
end

