-- ==== Sys2Proof/Machine/Ops.lean ====
section
/-! DEFINITION. The shared operations: ports and completion of requests, the choice of the next claim, accounts, links,
episodes, STOP demands, the Result Queue. A block has no exception entry; raising an event is `raiseEvent` in Flags. -/

namespace Sys2Proof.Machine

/-- The answer of a command. -/
abbrev Answer := Host.Outcome State Fault Refusal

/-! ## Ports -/

/-- A port's own state. -/
def State.common (s : State) : Port → PortCommon
  | .a => s.portA.common
  | .b => s.portB.common

/-- The state with a port's own state replaced. -/
def State.setCommon (s : State) (p : Port) (c : PortCommon) : State :=
  match p with
  | .a => { s with portA := { s.portA with common := c } }
  | .b => { s with portB := { s.portB with common := c } }

/-- The completion event of a port's area (10 R171). -/
def completionEvent : Port → EventSource
  | .a => .requestDone
  | .b => .inspection

/-- The area becomes DONE with a new response block, busy is cleared and the completion event is raised with the code
answered as detail (10 R171, R168). -/
def complete (p : Port) (code : Byte) (o : ReqOutcome) (vals : List Word32) (s : State) : State :=
  let c := s.common p
  let area := { c.area with state := .done, busy := false, response := ⟨some o, code, padValues vals⟩ }
  raiseEvent (completionEvent p) code.toNat (s.setCommon p { c with area := area })

/-- The view takes a snapshot and its pointer returns to 0 (09 R155, 12 R186). -/
def setView (p : Port) (snap : Snapshot) (s : State) : State :=
  let c := s.common p
  s.setCommon p { c with view := { c.view with snapshot := snap, pointer := 0 } }

/-! ## Choosing the next request or claim -/

/-- The request of a port that waits at an owner (10 R170). -/
def waitingAt (s : State) (o : Owner) (p : Port) : Option Request :=
  let area := (s.common p).area
  match area.state, area.latched with
  | .pending, some r =>
    match RequestCode.ofByte r.code with
    | some c => if c.owner = o then some r else none
    | none => none
  | _, _ => none

/-- The port whose request an owner without one chooses: port B's if it waits, otherwise port A's (10 R170, 07 R116). -/
def preferredPort (s : State) (o : Owner) : Option Port :=
  if (waitingAt s o .b).isSome then some .b
  else if (waitingAt s o .a).isSome then some .a
  else none

/-- The claim an engine without one chooses from what waits (07 R116; during the orderly stop R118: queue heads only). -/
def chosenClaim (s : State) : Option Claim :=
  let head := if s.queue.isEmpty then none else some Claim.entry
  let request := (preferredPort s .engine).map Claim.request
  match s.part with
  | .stopped => none
  | .stopping => head
  | .running =>
    match s.lastClaim with
    | .entry => request.or head
    | .request | .none => head.or request

/-- The engine's next claim to complete: the one in flight, otherwise the one it chooses (07 R114, R116). -/
def nextClaim (s : State) : Option Claim := s.inFlight.or (chosenClaim s)

/-- The port whose request an owner has in hand (10 R170). -/
def inHand (s : State) : Owner → Option Port
  | .engine =>
    match s.inFlight with
    | some (.request p) => some p
    | some .entry | none => none
  | .monitor => s.monitorHand
  | .clock => s.clockHand

/-- The port whose request an idle Stack Monitor or Period Clock chooses; none once the orderly stop has begun (10 R170,
R173). -/
def chosenPort (s : State) (o : Owner) : Option Port := if s.part = .running then preferredPort s o else none

/-- The port whose request is completed next at an owner: the one in hand, otherwise the one it chooses (10 R170). -/
def nextPort (s : State) : Owner → Option Port
  | .engine =>
    match nextClaim s with
    | some (.request p) => some p
    | some .entry | none => none
  | .monitor => s.monitorHand.or (chosenPort s .monitor)
  | .clock => s.clockHand.or (chosenPort s .clock)

/-- What an owner has in hand after an owner with nothing in hand has taken what waits for it. -/
def takeHand (o : Owner) (s : State) : State :=
  match o with
  | .engine => { s with inFlight := nextClaim s }
  | .monitor => { s with monitorHand := nextPort s .monitor }
  | .clock => { s with clockHand := nextPort s .clock }

/-- The owners with a request in hand, in the order of taking, after an owner may have taken one. -/
def orderAfter (o : Owner) (s : State) : List Owner :=
  if inHand s o = none ∧ (nextPort s o).isSome then s.handOrder ++ [o] else s.handOrder

/-- An owner with nothing in hand takes what waits for it (07 R116, 10 R170): from then on it is in hand, and what arrives
later waits. A request taken is the last in the order of taking. -/
def takeUp (o : Owner) (s : State) : State := { takeHand o s with handOrder := orderAfter o s }

/-- The request that is completed next at its owner, when it is one of code c. -/
def takenRequest (s : State) (c : RequestCode) : Option (Port × Request) :=
  match nextPort s c.owner with
  | some p =>
    match waitingAt s c.owner p with
    | some r => if r.code = c.byte then some (p, r) else none
    | none => none
  | none => none

/-- What an owner answers to a request: a refusal, which changes nothing (10 R171), or DONE with returned values and the
changed state, or DONE with a snapshot for the port's view. -/
inductive Reply where
  | refused (o : ReqOutcome)
  | done (vals : List Word32) (s : State)
  | read (vals : List Word32) (snap : Snapshot)
deriving DecidableEq, Repr

/-- The response, the view and the area state change together (10 R171). -/
def answer (p : Port) (code : Byte) (reply : Reply) (s : State) : State :=
  match reply with
  | .refused o => complete p code o [] s
  | .done vals t => complete p code .done vals t
  | .read vals snap => complete p code .done vals (setView p snap s)

/-- An owner's request is over: nothing in hand; at the engine the last claim completed is a request (07 R114). -/
def release (o : Owner) (s : State) : State :=
  let t := { s with handOrder := s.handOrder.filter (· != o) }
  match o with
  | .engine => { t with inFlight := none, lastClaim := .request }
  | .monitor => { t with monitorHand := none }
  | .clock => { t with clockHand := none }

/-- A request completed at its owner, which then takes the next (10 R170, R171). -/
def finish (o : Owner) (s : State) : State := takeUp o (release o s)

/-! ## Accounts and links -/

/-- The account in a slot. -/
def State.account (s : State) (i : SlotNo) : Account := s.accounts.get i

/-- The state with one account replaced. -/
def State.setAccount (s : State) (i : SlotNo) (a : Account) : State := { s with accounts := put s.accounts i a }

/-- A channel record. -/
def State.channel (s : State) (c : ChannelNo) : Channel := s.channels.get c

/-- The state with one channel record replaced. -/
def State.setChannel (s : State) (c : ChannelNo) (r : Channel) : State := { s with channels := put s.channels c r }

/-- The state with the link of a channel set or cleared (01 R7). -/
def State.setLink (s : State) (c : ChannelNo) (l : Option SlotNo) : State :=
  s.setChannel c { s.channel c with link := l }

/-- Whether a channel's link names the slot. -/
def linksTo (s : State) (slot : SlotNo) (c : ChannelNo) : Bool := (s.channel c).link == some slot

/-- The account slots that the links name, each once (06 R104). -/
def linkedAccounts (s : State) : List SlotNo :=
  (List.finRange 128).filter (fun slot => anyOf (linksTo s slot))

/-- Increments cfg_rev; from 65535 it gives 0 (01 R8). -/
def Account.revised (a : Account) : Account := { a with cfgRev := a.cfgRev + 1 }

/-- A year part at zero with no maximum (01 R10). -/
def YearPart.empty : YearPart :=
  { hhValid := 0, hhInvalid := 0, hhExcluded := 0, hhAbnormal := 0, hhGap := 0, hhOverShort := 0, hhOverPct := 0,
    hhInternal := 0, daysValid := 0, daysInvalid := 0, daysExcluded := 0, daysAbnormal := 0, daysOver := 0,
    maxDay := none, maxHalfHour := none, episodesEnded := 0, longestEpisode := 0 }

/-- A day part at zero on a day (01 R10, 07 R130). -/
def DayPart.empty (day : Nat) : DayPart :=
  { day := day, hhValid := 0, hhInvalid := 0, hhExcluded := 0, hhAbnormal := 0, hhGap := 0, sum := 0, hhOverShort := 0 }

/-- A new current side with its day part on a day (01 R10). -/
def CurrentSide.fresh (day : Nat) (marks : MarkSet) : CurrentSide := ⟨.empty day, .empty, marks⟩

/-- The current side with a mark added. -/
def CurrentSide.addMark (c : CurrentSide) (k : Mark) : CurrentSide := { c with marks := c.marks.add k }

/-- The state with the current side of an account changed, where it has one. -/
def State.updCurrent (s : State) (i : SlotNo) (f : CurrentSide → CurrentSide) : State :=
  let a := s.account i
  s.setAccount i { a with current := a.current.map f }

/-! ## Episodes (08) -/

/-- An OPEN episode has no end (08 R139). -/
def Episode.isOpen (e : Episode) : Bool := e.ended.isNone

/-- Whether an episode is an EXCEEDANCE episode of a slot. -/
def Episode.ofSlot (slot : SlotNo) (e : Episode) : Bool := e.subject == .exceedance slot

/-- The OPEN episode of a subject. -/
def openEpisode (s : State) (sub : Subject) : Option Episode :=
  s.episodes.find? (fun e => e.isOpen && e.subject == sub)

/-- The number after n, from 65535 to 1 (08 R140). -/
def nextNumber (n : Nat) : Nat := if n = 65535 then 1 else n + 1

/-- The first number from c on that is not held, moving on at most `fuel` times (08 R140). -/
def freeNumber (held : List Nat) : Nat → Nat → Nat
  | 0, c => c
  | fuel + 1, c => if held.contains c then freeNumber held fuel (nextNumber c) else c

/-- Opening: an episode joins the tail, or the opening fails on a full list (08 R141, R142). -/
def openNew (sub : Subject) (start : HalfHourStamp) (peak : Option Nat) (s : State) : State :=
  if s.episodes.length < Config.listCapacity then
    let n := freeNumber (s.episodes.map (·.number)) 31 s.episodeCounter
    let e : Episode :=
      { number := n, subject := sub, start := start, ended := none, length := 1, peak := peak, acknowledged := false,
        cause := none }
    raiseEvent (match sub with
        | .exceedance _ => .shortOpened
        | .abnormalOperation _ => .abnormalOpened) n
      { s with episodes := s.episodes ++ [e], episodeCounter := nextNumber n }
  else
    match sub with
    | .exceedance slot => raiseEvent .listFull slot (s.updCurrent slot (·.addMark .episodeUntracked))
    | .abnormalOperation stack => raiseEvent .listFull (128 + stack) s

/-- One more half-hour counted into an episode (08 R143, R139: the length stops at 65535). -/
def Episode.extend (e : Episode) (value : Option Nat) : Episode :=
  { e with
    length := min 65535 (e.length + 1)
    peak := match e.peak, value with
      | some p, some v => some (max p v)
      | p, _ => p }

/-- A qualifying half-hour: extends the OPEN episode of the subject, or opens one (08 R141, R143). -/
def qualify (sub : Subject) (stamp : HalfHourStamp) (value : Option Nat) (s : State) : State :=
  if (openEpisode s sub).isSome then
    { s with episodes := s.episodes.map (fun e => if e.isOpen && e.subject == sub then e.extend value else e) }
  else openNew sub stamp value s

/-- The fold of an EXCEEDANCE episode into its account's current year part (08 R145). -/
def foldEpisode (e : Episode) (s : State) : State :=
  match e.subject with
  | .exceedance slot =>
    s.updCurrent slot (fun c =>
      { c with year :=
          { c.year with
            episodesEnded := c.year.episodesEnded + 1
            longestEpisode := max c.year.longestEpisode e.length } })
  | .abnormalOperation _ => s

/-- Ends every OPEN episode whose subject satisfies `p`: folds it, and removes it when it is acknowledged (08 R144). -/
def endEpisodes (p : Subject → Bool) (stamp : HalfHourStamp) (s : State) : State :=
  let ends := fun e : Episode => e.isOpen && p e.subject
  let folded := (s.episodes.filter ends).foldl (fun t e => foldEpisode e t) s
  { folded with
    episodes := s.episodes.filterMap (fun e =>
      if ends e then (if e.acknowledged then none else some { e with ended := some stamp }) else some e) }

/-! ## STOP demands (03) -/

/-- An allowance record. -/
def State.allowance (s : State) (i : StackNo) : StackAllowance := s.allowances.get i

/-- The state with one allowance record replaced. -/
def State.setAllowance (s : State) (i : StackNo) (r : StackAllowance) : State :=
  { s with allowances := put s.allowances i r }

/-- The demand that the record's figures call for (03 R59). -/
def StackAllowance.evaluated (r : StackAllowance) : StopDemand :=
  if r.episodeAllowance ≤ r.runHh then .episode
  else if r.annualAllowance ≤ r.yearAbnHh then .annual
  else .released

/-- The evaluation of a stack's STOP demand, with the STOP event on a rise (03 R59). -/
def evaluateStop (i : StackNo) (s : State) : State :=
  let r := s.allowance i
  let d := r.evaluated
  let t := s.setAllowance i { r with demand := d, exceeded := r.exceeded || d.asserted }
  if !r.demand.asserted && d.asserted then raiseEvent .stop i t else t

/-- STOP0 to STOP3 follow the demands (03 R60): true is high. -/
def stopPin (s : State) (i : StackNo) : Bool := (s.allowance i).demand.asserted

/-- The INT pin, low while the Event Unit asserts it (12 R190): true is high. After the part has stopped no rule gives its
level; the model lets it go on following the records the unit holds (DESIGN CHOICE, assumption 14). -/
def intPin (s : State) : Bool := !s.events.intAsserted

/-! ## The Result Queue (06) -/

/-- Whether an entry is a gap entry. -/
def Entry.isGap : Entry → Bool
  | .gap _ => true
  | .result _ | .stack _ | .dayEnd _ _ | .yearEnd _ => false

/-- The gap-waiting indication (06 R110). -/
def gapWaiting (s : State) : Bool := s.queue.any Entry.isGap

/-- The half-hour count just behind a gap's covered run (06 R104). -/
def GapEntry.endCount (g : GapEntry) : Nat := g.start.count + g.count

/-- Appends a gap entry and raises BACKLOG with the half-hour of day of its start (06 R107, R109). -/
def appendGap (start : HalfHourStamp) (count : Nat) (s : State) : State :=
  raiseEvent .backlog start.hh
    { s with queue := s.queue ++ [.gap { start := start, count := count, charged := linkedAccounts s }] }

/-- The queue with the count of its last entry, a gap entry, replaced. -/
def setLastGap (g : GapEntry) (count : Nat) (s : State) : State :=
  { s with queue := s.queue.dropLast ++ [.gap { g with count := count }] }

/-- Records a half-hour whose batch did not fit as part of a gap (06 R107, R108). A full queue whose last entry is no gap
is ruled out by R106; the queue is then left as it is (assumption 18). A full queue whose last gap entry counts 65535 is
ruled out by R105 and R108; the entry is then extended beyond 65535 all the same (DESIGN CHOICE, assumption 18). -/
def recordGap (h : HalfHourStamp) (s : State) : State :=
  match s.queue.getLast? with
  | some (.gap g) =>
    if g.endCount = h.count ∧ g.count < Config.gapLimit then setLastGap g (g.count + 1) s
    else if s.queue.length < Config.queueCapacity then appendGap h 1 s
    else setLastGap g (h.count + 1 - g.start.count) s
  | some (.result _) | some (.stack _) | some (.dayEnd _ _) | some (.yearEnd _) | none =>
    if s.queue.length < Config.queueCapacity then appendGap h 1 s else s

/-- The queue after the offer of the batch of half-hour h: appended whole when k + 1 entries are free, else recorded as a
gap; a batch of no entries is not offered (05 R99, 06 R106). -/
def queueBatch (h : HalfHourStamp) (batch : List Entry) (s : State) : State :=
  if batch = [] then s
  else if batch.length + 1 ≤ Config.queueCapacity - s.queue.length then { s with queue := s.queue ++ batch }
  else recordGap h s

/-- The offer of a batch; an idle engine takes the new head (06 R106, 07 R116). -/
def offerBatch (h : HalfHourStamp) (batch : List Entry) (s : State) : State := takeUp .engine (queueBatch h batch s)

end Sys2Proof.Machine
end

