-- ==== Sys2Proof/Machine/Collector.lean ====
section
/-! DEFINITION. The Minute Collector: the collection of a minute and the close of a half-hour (02 R44, 05). -/

namespace Sys2Proof.Machine

/-- The classes of a minute (05 R88). -/
inductive MinuteClass where
  | notOperating
  | missing
  | service
  | fault
  | range
  | oxygen
  | valid
deriving DecidableEq, Repr

/-- The two slots of a channel. -/
def State.slotPair (s : State) (c : ChannelNo) : SlotPair := s.slots.get c

/-- The value of a slot's record (02 R40). -/
def PostingSlot.number (p : PostingSlot) : Int := p.value.toInt

/-- The quality code, bits 0 to 3 (12 R187). -/
def PostingSlot.qualityCode (p : PostingSlot) : Nat := (p.quality.extractLsb' 0 4).toNat

/-- A slot whose record the collection of m takes (02 R44). -/
def takenAt (ch : Channel) (m : MinuteStamp) (p : PostingSlot) : Bool :=
  ch.state == .collecting && p.loaded && p.stamp == m

/-- A slot after the collection of m (02 R44). -/
def collectSlot (ch : Channel) (m : MinuteStamp) (p : PostingSlot) : PostingSlot :=
  if takenAt ch m p then { p with loaded := false, code := .taken }
  else if p.loaded && ch.state != .collecting then { p with loaded := false, code := .discardedStopped }
  else p

/-- The record taken for a channel at the collection of m, at most one by R42. -/
def takenRecord (s : State) (m : MinuteStamp) (c : ChannelNo) : Option PostingSlot :=
  let pair := s.slotPair c
  if takenAt (s.channel c) m pair.x then some pair.x
  else if takenAt (s.channel c) m pair.y then some pair.y
  else none

/-- A stack's frozen marks at a collection. They are always present then (05 R88); absent ones would count as not fired
(assumption 18). -/
def frozenMarks (s : State) (i : StackNo) : Marks := ((s.inputs.get i).frozen).getD ⟨false, false⟩

/-- Cases 1 to 5 and 7 of 05 R88: the class of m for a COLLECTING channel without its oxygen source. -/
def ownClass (s : State) (m : MinuteStamp) (c : ChannelNo) : MinuteClass :=
  let ch := s.channel c
  if !(frozenMarks s ch.stack).fired then .notOperating
  else
    match takenRecord s m c with
    | none => .missing
    | some p =>
      if p.qualityCode = 2 ∨ p.qualityCode = 3 then .service
      else if p.qualityCode = 1 then .fault
      else if p.number < ch.low ∨ ch.high < p.number then .range
      else .valid

/-- The value of a COLLECTING oxygen source whose class for m is VALID and whose value is below 2000 (05 R88 case 6,
R89). -/
def oxygenValue (s : State) (m : MinuteStamp) (c : ChannelNo) : Option Int :=
  if (s.channel c).state = .collecting ∧ ownClass s m c = .valid then
    match takenRecord s m c with
    | some p => if p.number < 2000 then some p.number else none
    | none => none
  else none

/-- The class of m for a COLLECTING channel (05 R88). -/
def minuteClass (s : State) (m : MinuteStamp) (c : ChannelNo) : MinuteClass :=
  match ownClass s m c, (s.channel c).oxygen with
  | .valid, some term => if (oxygenValue s m term.source).isSome then .valid else .oxygen
  | k, _ => k

/-- The value with which a VALID minute enters the accumulator, normalised where there is an oxygen source (05 R91). -/
def enteredValue (s : State) (m : MinuteStamp) (c : ChannelNo) : Int :=
  let v := match takenRecord s m c with
    | some p => p.number
    | none => 0
  match (s.channel c).oxygen with
  | none => v
  | some term =>
    match oxygenValue s m term.source with
    | some o2 => roundDiv (v * (2100 - (term.reference : Int))) (2100 - o2).toNat
    | none => v

/-- One minute counted with its class (05 R93). -/
def Accumulator.count (acc : Accumulator) (k : MinuteClass) (value : Int) : Accumulator :=
  match k with
  | .notOperating => acc
  | .valid => { acc with operating := acc.operating + 1, valid := acc.valid + 1, sum := acc.sum + value }
  | .missing => { acc with operating := acc.operating + 1, missing := acc.missing + 1 }
  | .service => { acc with operating := acc.operating + 1, service := acc.service + 1 }
  | .fault => { acc with operating := acc.operating + 1, fault := acc.fault + 1 }
  | .range => { acc with operating := acc.operating + 1, range := acc.range + 1 }
  | .oxygen => { acc with operating := acc.operating + 1, oxygen := acc.oxygen + 1 }

/-- The two flags: once set they stay (05 R93). -/
def Accumulator.flag (acc : Accumulator) (abnormal internal : Bool) : Accumulator :=
  { acc with abnormal := acc.abnormal || abnormal, internal := acc.internal || internal }

/-- The accumulator of a channel after the collection of m (05 R93, R94). -/
def collectAccumulator (s : State) (m : MinuteStamp) (internal : Bool) (c : ChannelNo) : Accumulator :=
  let ch := s.channel c
  let acc := s.accumulators.get c
  let marks := frozenMarks s ch.stack
  if ch.state = .collecting then
    let k := minuteClass s m c
    (acc.count k (enteredValue s m c)).flag (k != .notOperating && marks.abnormal) internal
  else if ch.link.isSome then
    (acc.count (if marks.fired then .missing else .notOperating) 0).flag (marks.fired && marks.abnormal) internal
  else acc

/-- A stack's half-hour count after the collection of a minute (05 R96). -/
def collectCount (s : State) (i : StackNo) : StackCount :=
  let n := s.counts.get i
  let marks := frozenMarks s i
  { fired := n.fired + marks.fired.toNat, abnormal := n.abnormal + marks.abnormal.toNat }

/-- The lowest COLLECTING channel that receives the class MISSING for m (05 R95). -/
def firstMissing (s : State) (m : MinuteStamp) : Option ChannelNo :=
  lowest (fun c => (s.channel c).state == .collecting && minuteClass s m c == .missing)

/-! ## The half-hour close -/

/-- The class of a half-hour with its raw average (05 R98). -/
def halfHourClass (minMinutes : Nat) (acc : Accumulator) : HalfHourClass :=
  if acc.operating = 0 then .excluded
  else if minMinutes ≤ acc.valid then .valid (roundDiv acc.sum acc.valid)
  else .invalid

/-- The RESULT entry of a linked channel (05 R98, R100). -/
def resultEntry (s : State) (h : HalfHourStamp) (c : ChannelNo) : Option Entry :=
  match (s.channel c).link with
  | some slot =>
    let acc := s.accumulators.get c
    some (.result { slot := slot, stamp := h, cls := halfHourClass (s.channel c).minMinutes acc,
                    abnormal := acc.abnormal, internal := acc.internal })
  | none => none

/-- The STACK entry of an enabled stack (05 R99, R101). -/
def stackEntry (s : State) (h : HalfHourStamp) (i : StackNo) : Option Entry :=
  if (s.inputs.get i).enable then
    some (.stack { stack := i, stamp := h, fired := (s.counts.get i).fired, abnormal := (s.counts.get i).abnormal })
  else none

/-- The batch of half-hour h (05 R99). -/
def batch (s : State) (h : HalfHourStamp) : List Entry :=
  (List.finRange 48).filterMap (resultEntry s h) ++ (List.finRange 4).filterMap (stackEntry s h) ++
    (if h.hh = 47 then [.dayEnd h.year h.day] else []) ++
    (if h.hh = 47 ∧ h.day = daysInYear h.year then [.yearEnd h.year] else [])

/-- Every accumulator restarts empty and every stack count at zero (05 R97). -/
def restartHalfHour (s : State) : State :=
  { s with accumulators := Vector.replicate 48 .empty, counts := Vector.replicate 4 .zero }

/-- The close of half-hour h (05 R98, R99). -/
def closeHalfHour (h : HalfHourStamp) (s : State) : State :=
  raiseEvent .halfHourClosed h.hh (restartHalfHour (offerBatch h (batch s h) s))

/-! ## The collection -/

/-- Steps 1 to 5 of 05 R86, from the records as they stand when the collection is taken; the frozen marks are absent
afterwards (03 R57). -/
def collectRecords (m : MinuteStamp) (internal : Bool) (s : State) : State :=
  { s with
    slots := tabulate (fun c =>
      let pair := s.slotPair c
      ⟨collectSlot (s.channel c) m pair.x, collectSlot (s.channel c) m pair.y⟩)
    accumulators := tabulate (collectAccumulator s m internal)
    counts := tabulate (collectCount s)
    inputs := tabulate (fun i => { s.inputs.get i with frozen := none }) }

/-- The collection of minute m, taken whole (05 R86). -/
def collectMinute (m : MinuteStamp) (internal : Bool) (s : State) : State :=
  let t := collectRecords m internal s
  let t := match firstMissing s m with
    | some c => raiseEvent .minuteIncomplete c t
    | none => t
  if m.endsHalfHour then closeHalfHour m.halfHour t else t

end Sys2Proof.Machine
end

