-- ==== Sys2Proof/Machine/Lifecycle.lean ====
section
/-! DEFINITION. The account lifecycle requests (01 R16 to R26) and MARK (09 R162 to R164). -/

namespace Sys2Proof.Machine

/-- The common checks of 01 R16: the target index, then the expected cfg_rev. -/
def withTarget (r : Request) (s : State) (k : SlotNo → Account → Reply) : Reply :=
  match index? 128 r.target with
  | none => .refused .argument
  | some i =>
    match r.expected with
    | some e => if e ≠ (s.account i).cfgRev then .refused .stale else k i (s.account i)
    | none => k i (s.account i)

/-- The clock and backlog conditions of 01 R16. -/
def withClockAndBacklog (s : State) (k : Reply) : Reply :=
  if s.clock.state ≠ .run then .refused .clockHeld
  else if gapWaiting s then .refused .backlog
  else k

/-- A cfg_rev as a returned value. -/
def revWord (w : Word16) : Word32 := w.setWidth 32

/-- A channel number as a returned value, NONE when absent. -/
def channelWord (c : Option ChannelNo) : Word32 := numOr (c.map Fin.val)

/-- Whether a channel record is configured for an account's stack and substance. -/
def fits (ch : Channel) (a : Account) : Bool :=
  ch.state != .unused && ch.stack == a.key.stack && ch.substance == a.key.substance

/-! ## CREATE_ACCOUNT (01 R17) -/

/-- The key of a request when it is in range (01 R17 check 1). -/
def keyArg (r : Request) : Option Key :=
  match index? 4 r.stack, index? 16 r.substance, index? 256 r.edition with
  | some st, some sub, some ed => if sub.1 ≤ 14 then some ⟨st, sub, ed⟩ else none
  | _, _, _ => none

/-- Whether an account that is not FREE holds the key (01 R3). -/
def keyTaken (s : State) (k : Key) : Bool := anyOf (fun i => (s.account i).state != .free && (s.account i).key == k)

/-- The lowest FREE slot (01 R17). -/
def lowestFree (s : State) : Option SlotNo := lowest (fun i => (s.account i).state == .free)

/-- The account CREATE_ACCOUNT makes (01 R17). -/
def draftAccount (k : Key) : Account := { Account.free with state := .draft, key := k }

/-- CREATE_ACCOUNT's checks and effect (01 R17). -/
def performCreateAccount (r : Request) (s : State) : Reply :=
  match keyArg r with
  | none => .refused .argument
  | some k =>
    if keyTaken s k then .refused .keyTaken
    else
      match lowestFree s with
      | none => .refused .noSpace
      | some i => .done [num i, revWord 0] (s.setAccount i (draftAccount k))

/-! ## SET_LIMITS (01 R18) -/

/-- The largest limit (01 R5). -/
def limitMax : Nat := 268435455

/-- An optional argument from 0 to hi: none when out of range, some none for the absent indication. -/
def Request.optArg (r : Request) (n hi : Nat) : Option (Option Nat) :=
  match r.arg n with
  | none => some none
  | some v => if 0 ≤ v ∧ v ≤ hi then some (some v.toNat) else none

/-- The percentile limit and the share: both present or both absent (01 R5, R18). -/
def pctArg (r : Request) : Option (Option PctLimit) :=
  match r.optArg 2 limitMax, r.optArg 3 1000 with
  | some none, some none => some none
  | some (some l), some (some sh) => some (some ⟨l, sh⟩)
  | _, _ => none

/-- Max invalid half-hours per day, bits 0 to 15 of argument 6 (12 R185). -/
def maxInvalidArg (r : Request) : Nat := ((r.word 6).extractLsb' 0 16).toNat

/-- The invalid-day allowance, bits 16 to 31 of argument 6 (12 R185). -/
def allowanceArg (r : Request) : Nat := ((r.word 6).extractLsb' 16 16).toNat

/-- The six arguments as limits and settings, none when a check of 01 R18 refuses them. -/
def termsArg (r : Request) : Option Terms :=
  match r.optArg 1 limitMax, pctArg r, r.optArg 4 limitMax, r.natArg 5 0 65535 with
  | some short, some pct, some day, some ci =>
    if maxInvalidArg r ≤ 48 ∧ allowanceArg r ≤ 366 then
      some { short := short, pct := pct, day := day, ci := ci, maxInvalid := maxInvalidArg r, allowance := allowanceArg r }
    else none
  | _, _, _, _ => none

/-- SET_LIMITS's checks and effect (01 R18). -/
def performSetLimits (r : Request) (s : State) : Reply :=
  withTarget r s fun i a =>
    if a.state ≠ .draft then .refused .state
    else
      match termsArg r with
      | none => .refused .argument
      | some t =>
        let a' := { a with terms := t }.revised
        .done [revWord a'.cfgRev] (s.setAccount i a')

/-! ## LINK_SOURCE (01 R19) -/

/-- Argument n as a channel number 0 to 47. -/
def Request.channelArg (r : Request) (n : Nat) : Option ChannelNo :=
  match r.natArg n 0 47 with
  | some c => index? 48 c
  | none => none

/-- The source named by argument 1: some none for the clear indication, none when a check refuses the channel. -/
def sourceArg (r : Request) (s : State) (a : Account) : Option (Option ChannelNo) :=
  match r.arg 1 with
  | none => some none
  | some _ =>
    match r.channelArg 1 with
    | some c => if fits (s.channel c) a then some (some c) else none
    | none => none

/-- LINK_SOURCE's checks and effect (01 R19). -/
def performLinkSource (r : Request) (s : State) : Reply :=
  withTarget r s fun i a =>
    if a.state ≠ .draft then .refused .state
    else
      match sourceArg r s a with
      | none => .refused .argument
      | some src =>
        let a' := { a with source := src }.revised
        .done [revWord a'.cfgRev, channelWord a.source] (s.setAccount i a')

/-! ## ACTIVATE (01 R20) -/

/-- Another ACTIVE account with the same stack and substance (01 R20 check 4). -/
def otherActive (s : State) (i : SlotNo) (k : Key) : Bool :=
  anyOf (fun j => j != i && (s.account j).state == .active && (s.account j).key.stack == k.stack &&
    (s.account j).key.substance == k.substance)

/-- An account brought into service at a half-hour (01 R20, R21). -/
def Account.intoService (a : Account) (h : HalfHourStamp) (c : ChannelNo) (marks : MarkSet) : Account :=
  { a with state := .active, source := some c, activatedAt := some h, current := some (.fresh h.day marks) }.revised

/-- ACTIVATE's checks and effect (01 R20). -/
def performActivate (r : Request) (s : State) : Reply :=
  withTarget r s fun i a =>
    if a.state ≠ .draft then .refused .state
    else
      match a.source with
      | none => .refused .argument
      | some c =>
        if !fits (s.channel c) a then .refused .argument
        else if (s.channel c).link.isSome then .refused .inUse
        else if otherActive s i a.key then .refused .inUse
        else withClockAndBacklog s (
          let h := pendingHalfHour s.clock
          let a' := a.intoService h c 0
          .done [revWord a'.cfgRev, num c, h.word] ((s.setAccount i a').setLink c (some i)))

/-! ## AMEND (01 R21) -/

/-- Argument 1 as a successor slot other than the target (01 R21 check 1). -/
def successorArg (r : Request) (i : SlotNo) : Option SlotNo :=
  match r.natArg 1 0 127 with
  | some n =>
    match index? 128 n with
    | some j => if j = i then none else some j
    | none => none
  | none => none

/-- An account frozen at a half-hour (01 R21, R24). -/
def Account.freeze (a : Account) (h : HalfHourStamp) : Account := { a with state := .frozen, frozenAt := some h }.revised

/-- Whether S can succeed A: same stack and substance, higher edition, no source channel of its own (01 R21 check 3). -/
def succeeds (succ a : Account) : Bool :=
  succ.key.stack == a.key.stack && succ.key.substance == a.key.substance && decide (a.key.edition < succ.key.edition) &&
    succ.source.isNone

/-- A successor brought into service on the source channel of the account it succeeds (01 R21). -/
def Account.succeed (succ a : Account) (h : HalfHourStamp) : Account :=
  { succ with
    state := .active
    source := a.source
    activatedAt := some h
    current := some (.fresh h.day Mark.permitAmended.bit) }.revised

/-- The state with the link of an optional channel set or cleared. -/
def State.setLinkOf (s : State) (c : Option ChannelNo) (l : Option SlotNo) : State :=
  match c with
  | some c => s.setLink c l
  | none => s

/-- AMEND's checks and effect (01 R21). An absent argument 1 is refused at check 1, before STATE (DESIGN CHOICE,
assumption 27). -/
def performAmend (r : Request) (s : State) : Reply :=
  withTarget r s fun i a =>
    match successorArg r i with
    | none => .refused .argument
    | some j =>
      let succ := s.account j
      if a.state ≠ .active then .refused .state
      else if succ.state ≠ .draft then .refused .state
      else if !succeeds succ a then .refused .argument
      else withClockAndBacklog s (
        let h := pendingHalfHour s.clock
        let a' := a.freeze h
        let succ' := succ.succeed a h
        .done [revWord a'.cfgRev, revWord succ'.cfgRev, channelWord a.source, h.word]
          (((s.setAccount i a').setAccount j succ').setLinkOf a.source (some j)))

/-! ## REASSIGN (01 R23) -/

/-- An account moved to another channel, with ANALYZER_CHANGED on its current side (01 R23). -/
def Account.reassigned (a : Account) (c : ChannelNo) : Account :=
  { a with source := some c, current := a.current.map (fun side => CurrentSide.addMark side .analyzerChanged) }.revised

/-- REASSIGN's checks and effect (01 R23). An absent argument 1 is refused at check 1, before STATE (DESIGN CHOICE,
assumption 27). -/
def performReassign (r : Request) (s : State) : Reply :=
  withTarget r s fun i a =>
    match r.channelArg 1 with
    | none => .refused .argument
    | some c =>
      if a.state ≠ .active then .refused .state
      else if !fits (s.channel c) a then .refused .argument
      else if (s.channel c).link.isSome then .refused .inUse
      else withClockAndBacklog s (
        let a' := a.reassigned c
        .done [revWord a'.cfgRev, channelWord a.source, num c, (pendingHalfHour s.clock).word]
          (((s.setAccount i a').setLinkOf a.source none).setLink c (some i)))

/-! ## RETIRE (01 R24) -/

/-- RETIRE's checks and effect (01 R24). -/
def performRetire (r : Request) (s : State) : Reply :=
  withTarget r s fun i a =>
    if a.state ≠ .active then .refused .state
    else withClockAndBacklog s (
      let h := pendingHalfHour s.clock
      let a' := a.freeze h
      .done [revWord a'.cfgRev, channelWord a.source, h.word] ((s.setAccount i a').setLinkOf a.source none))

/-! ## DELETE_DRAFT (01 R25) -/

/-- DELETE_DRAFT's checks and effect (01 R25). -/
def performDeleteDraft (r : Request) (s : State) : Reply :=
  withTarget r s fun i a =>
    if a.state ≠ .draft then .refused .state else .done [num i] (s.setAccount i .free)

/-! ## CERTIFY (01 R26, 08 R153) -/

/-- The state without the EXCEEDANCE episodes of a slot (08 R153). -/
def removeEpisodesOf (slot : SlotNo) (s : State) : State :=
  { s with episodes := s.episodes.filter (fun e => !e.ofSlot slot) }

/-- CERTIFY's checks and effect (01 R26). -/
def performCertify (r : Request) (s : State) : Reply :=
  withTarget r s fun i a =>
    match a.closed with
    | none => .refused .state
    | some c =>
      if a.state = .lapsed then
        .done [num c.yearNo, num AccountState.free.number, num (s.episodes.countP (Episode.ofSlot i))]
          ((removeEpisodesOf i s).setAccount i .free)
      else
        .done [num c.yearNo, num a.state.number, num 0] (s.setAccount i { a with closed := none })

/-! ## MARK (09 R162 to R164) -/

/-- The four functions, numbered in this order. -/
inductive MarkFunction where
  | set
  | clear
  | toggle
  | replace
deriving DecidableEq, Repr

/-- Argument 1 of MARK. -/
def markFunctionArg (r : Request) : Option MarkFunction :=
  match r.natArg 1 0 3 with
  | some 0 => some .set
  | some 1 => some .clear
  | some 2 => some .toggle
  | some 3 => some .replace
  | some _ | none => none

/-- The selection and value set when the argument checks of 09 R162 pass. -/
def markArgs (r : Request) : Option (MarkFunction × MarkSet × MarkSet) :=
  match markFunctionArg r with
  | none => none
  | some f =>
    if r.word 2 = 0 ∨ !plantMarksOnly (r.word 2) then none
    else if f = .replace ∧ !plantMarksOnly (r.word 3) then none
    else some (f, (r.word 2).setWidth 10, (r.word 3).setWidth 10)

/-- The mark set after a function acts on the selection (09 R164). -/
def MarkFunction.apply (f : MarkFunction) (m sel val : MarkSet) : MarkSet :=
  match f with
  | .set => m ||| sel
  | .clear => m &&& ~~~sel
  | .toggle => m ^^^ sel
  | .replace => (m &&& ~~~sel) ||| (val &&& sel)

/-- An account after MARK: the current side's mark set and cfg_rev (09 R164). -/
def Account.marked (a : Account) (c : CurrentSide) (m : MarkSet) : Account :=
  { a with current := some { c with marks := m } }.revised

/-- MARK's checks and effect (09 R162 to R164). An ACTIVE or FROZEN account has a current side (01 R2). -/
def performMark (r : Request) (s : State) : Reply :=
  withTarget r s fun i a =>
    match a.state, a.current with
    | .active, some c | .frozen, some c =>
      match markArgs r with
      | none => .refused .argument
      | some (f, sel, val) =>
        if holdsWeightyMark (r.word 2) && decide (r.level = 2) then .refused .level
        else
          let m := f.apply c.marks sel val
          let a' := a.marked c m
          .done [MarkSet.word c.marks, revWord a'.cfgRev, MarkSet.word m] (s.setAccount i a')
    | _, _ => .refused .state

end Sys2Proof.Machine
end

