-- ==== Sys2Proof/Machine/Channels.lean ====
section
/-! DEFINITION. The channel requests (02 R33 to R39). -/

namespace Sys2Proof.Machine

/-- The common check of the channel requests: the target index names a channel. -/
def withChannel (r : Request) (s : State) (k : ChannelNo → Channel → Reply) : Reply :=
  match index? 48 r.target with
  | none => .refused .argument
  | some c => k c (s.channel c)

/-- Whether channel d names channel c as its oxygen source. -/
def namesOxygen (s : State) (c d : ChannelNo) : Bool :=
  match (s.channel d).oxygen with
  | some term => d != c && term.source == c
  | none => false

/-- Whether a slot is a DRAFT account that names channel c as its source channel. -/
def draftNames (s : State) (c : ChannelNo) (i : SlotNo) : Bool :=
  (s.account i).state == .draft && (s.account i).source == some c

/-! ## CONFIGURE_CHANNEL (02 R34, R35) -/

/-- The smallest and the largest count of a bound (02 R29), and those of an oxygen channel. -/
def boundRange (substance : Nat) : Int × Int := if substance = 15 then (0, 2100) else (-8388608, 8388607)

/-- Whether a channel may be the oxygen source of a channel at a stack: not UNUSED, an oxygen channel, of that stack
(02 R31). -/
def canSource (d : Channel) (stack : StackNo) : Bool := d.state != .unused && d.substance == 15 && d.stack == stack

/-- Arguments 4 and 5: some none for no oxygen source, none when a part of check 3 refuses them (02 R34). -/
def oxygenArg (r : Request) (s : State) (target : ChannelNo) (stack : StackNo) (substance : Nat) :
    Option (Option OxygenTerm) :=
  match r.arg 4 with
  | none => some none
  | some _ =>
    match r.channelArg 4, r.natArg 5 0 2000 with
    | some d, some ref =>
      if substance ≠ 15 ∧ d ≠ target ∧ canSource (s.channel d) stack then some (some ⟨d, ref⟩) else none
    | _, _ => none

/-- The record that CONFIGURE_CHANNEL stores, none when check 3 refuses the request (02 R34, R35). The link stays. -/
def configuredChannel (r : Request) (s : State) (c : ChannelNo) : Option Channel :=
  match index? 4 r.stack, index? 16 r.substance with
  | some stack, some substance =>
    let range := boundRange substance
    match r.argIn 1 range.1 range.2, r.argIn 2 range.1 range.2, r.natArg 3 1 30, oxygenArg r s c stack substance with
    | some low, some high, some minMinutes, some oxygen =>
      if low ≤ high then
        some { state := .idle, stack := stack, substance := substance, low := low, high := high, minMinutes := minMinutes,
               oxygen := oxygen, link := (s.channel c).link }
      else none
    | _, _, _, _ => none
  | _, _ => none

/-- CONFIGURE_CHANNEL's checks and effect (02 R34, R35). -/
def performConfigureChannel (r : Request) (s : State) : Reply :=
  withChannel r s fun c ch =>
    if ch.state = .collecting then .refused .state
    else
      match configuredChannel r s c with
      | none => .refused .argument
      | some new =>
        if (new.stack ≠ ch.stack ∨ new.substance ≠ ch.substance) ∧ (ch.link.isSome ∨ anyOf (namesOxygen s c)) then
          .refused .inUse
        else .done [num c, num ch.state.number] (s.setChannel c new)

/-! ## START_CHANNEL and STOP_CHANNEL (02 R36, R37) -/

/-- START_CHANNEL's checks and effect (02 R36). -/
def performStartChannel (r : Request) (s : State) : Reply :=
  withChannel r s fun c ch =>
    if ch.state ≠ .idle then .refused .state
    else .done [num c] (s.setChannel c { ch with state := .collecting })

/-- The number of LOADED slots of a pair. -/
def SlotPair.loadedCount (p : SlotPair) : Nat := p.x.loaded.toNat + p.y.loaded.toNat

/-- STOP_CHANNEL's checks and effect (02 R37). -/
def performStopChannel (r : Request) (s : State) : Reply :=
  withChannel r s fun c ch =>
    if ch.state ≠ .collecting then .refused .state
    else .done [num c, num (s.slotPair c).loadedCount] (s.setChannel c { ch with state := .idle })

/-! ## RELEASE_CHANNEL (02 R38) -/

/-- RELEASE_CHANNEL's checks and effect (02 R38). -/
def performReleaseChannel (r : Request) (s : State) : Reply :=
  withChannel r s fun c ch =>
    if ch.state ≠ .idle then .refused .state
    else if ch.link.isSome then .refused .inUse
    else if anyOf (draftNames s c) then .refused .inUse
    else if anyOf (namesOxygen s c) then .refused .inUse
    else .done [num c] (s.setChannel c .unused)

/-! ## READ_CHANNEL (02 R39) -/

/-- The CHANNEL snapshot (02 R39). -/
def channelSnapshot (s : State) (c : ChannelNo) : ChannelSnapshot :=
  { channel := c, record := s.channel c, namedBy := countOf (namesOxygen s c), draft := lowest (draftNames s c) }

/-- READ_CHANNEL's check and snapshot (02 R39). -/
def performReadChannel (r : Request) (s : State) : Reply :=
  withChannel r s fun c ch => .read [num c, num ch.state.number] (.channel (channelSnapshot s c))

end Sys2Proof.Machine
end

