-- ==== Sys2Proof/Machine/EpisodeRequests.lean ====
section
/-! DEFINITION. ACK_EPISODE and READ_EPISODE (08 R148 to R152). -/

namespace Sys2Proof.Machine

/-- The position in the list of the episode that holds a number. -/
def positionOf (s : State) (number : Nat) : Option Nat := s.episodes.findIdx? (fun e => e.number == number)

/-! ## ACK_EPISODE (08 R149) -/

/-- An episode acknowledged with a cause code, 0 for none (08 R149). -/
def Episode.acknowledge (e : Episode) (cause : Nat) : Episode :=
  { e with acknowledged := true, cause := if cause = 0 then none else some cause }

/-- The list after the acknowledgement of the episode at a position: removed when ENDED, kept when OPEN (08 R149). -/
def acknowledgeAt (l : List Episode) (pos : Nat) (e : Episode) (cause : Nat) : List Episode :=
  if e.isOpen then l.set pos (e.acknowledge cause) else l.eraseIdx pos

/-- ACK_EPISODE's checks and effect (08 R149). -/
def performAckEpisode (r : Request) (s : State) : Reply :=
  match r.natArg 1 1 65535, r.natArg 2 0 255 with
  | some number, some cause =>
    match positionOf s number with
    | none => .refused .notFound
    | some pos =>
      match s.episodes[pos]? with
      | none => .refused .notFound
      | some e =>
        if e.acknowledged then .refused .state
        else
          let l := acknowledgeAt s.episodes pos e cause
          .done [num e.number, num e.subject.kind, num e.subject.index, num (!e.isOpen).toNat, num l.length]
            { s with episodes := l }
  | _, _ => .refused .argument

/-! ## READ_EPISODE (08 R151, R152) -/

/-- The subject as an EPISODE snapshot shows it (08 R152). -/
def subjectShown (s : State) : Subject → SubjectShown
  | .exceedance slot => .account (s.account slot).key (s.account slot).state
  | .abnormalOperation stack => .stack (s.allowance stack).runHh (s.allowance stack).demand

/-- The EPISODE snapshot (08 R152). -/
def episodeSnapshot (s : State) (pos : Nat) (e : Episode) : EpisodeSnapshot :=
  { episode := e, position := pos, count := s.episodes.length, counter := s.episodeCounter,
    shown := subjectShown s e.subject }

/-- The position that selector and selection name: none when check 1 or 2 refuses them, some none when no episode holds
the number (08 R151). -/
def selectedPosition (r : Request) (s : State) : Option (Option Nat) :=
  match r.natArg 1 0 1 with
  | some 0 => (r.natArg 2 1 65535).map (positionOf s)
  | some _ => (r.natArg 2 0 31).map some
  | none => none

/-- READ_EPISODE's checks and snapshot (08 R151). -/
def performReadEpisode (r : Request) (s : State) : Reply :=
  match selectedPosition r s with
  | none => .refused .argument
  | some none => .refused .notFound
  | some (some pos) =>
    match s.episodes[pos]? with
    | none => .refused .notFound
    | some e =>
      .read [num e.number, num pos, num s.episodes.length] (.episode (episodeSnapshot s pos e))

end Sys2Proof.Machine
end

