-- ==== Sys2Proof/Machine/Finding.lean ====
section
/-! DEFINITION. FIND and READ_ACCOUNT (09 R157 to R159). -/

namespace Sys2Proof.Machine

/-! ## FIND (09 R158, R159) -/

/-- A compare record: each field present when it is in the care set (09 R158). -/
structure Compare where
  stack : Option Nat
  substance : Option Nat
  edition : Option Nat
  state : Option Nat
  closed : Option Nat
deriving DecidableEq, Repr

/-- A compare value of a field: some none outside the care set, none when it is cared for and out of range
(09 R158 check 3). -/
def careField (care : Bool) (value : Option Nat) : Option (Option Nat) :=
  if care then value.map some else some none

/-- The compare record of a request, none when check 2 or 3 refuses it. The care set's bits are those of 12 R185. -/
def compareArg (r : Request) : Option Compare :=
  let care := r.word 3
  if care &&& 0xFFFFFFE0#32 ≠ 0 then none
  else
    match careField (care.getLsbD 0) (if r.stack ≤ 3 then some r.stack else none),
        careField (care.getLsbD 1) (if r.substance ≤ 15 then some r.substance else none),
        careField (care.getLsbD 2) (if r.edition ≤ 255 then some r.edition else none),
        careField (care.getLsbD 3) (r.natArg 1 0 4), careField (care.getLsbD 4) (r.natArg 2 0 1) with
    | some stack, some substance, some edition, some state, some closed =>
      some { stack := stack, substance := substance, edition := edition, state := state, closed := closed }
    | _, _, _, _, _ => none

/-- Whether a field equals its compare value, when it is cared for. -/
def agrees (compare : Option Nat) (value : Nat) : Bool :=
  match compare with
  | some v => v == value
  | none => true

/-- Whether an account matches (09 R159). -/
def Account.matching (a : Account) (k : Compare) : Bool :=
  agrees k.stack a.key.stack && agrees k.substance a.key.substance && agrees k.edition a.key.edition &&
    agrees k.state a.state.number && agrees k.closed a.closed.isSome.toNat

/-- Half a group's match set: bit i for slot first + i (09 R159, 12 R185). -/
def matchSet (p : Nat → Bool) (first : Nat) : Word32 :=
  (List.range 16).foldl (fun acc i => if p (first + i) then acc ||| (1#32 <<< i) else acc) 0

/-- Whether the slot with a number matches. -/
def slotMatches (s : State) (k : Compare) (n : Nat) : Bool :=
  match index? 128 n with
  | some i => (s.account i).matching k
  | none => false

/-- The six values FIND returns (09 R159). -/
def findValues (s : State) (k : Compare) (start : Nat) : List Word32 :=
  let hit := fun i : SlotNo => (s.account i).matching k
  let group := start / 32
  [numOr ((lowest (fun i : SlotNo => decide (start ≤ i.1) && hit i)).map Fin.val),
   numOr ((highest hit).map Fin.val),
   num (countOf hit),
   num group,
   matchSet (slotMatches s k) (32 * group),
   matchSet (slotMatches s k) (32 * group + 16)]

/-- FIND's checks and returned values (09 R158, R159): nothing changes. -/
def performFind (r : Request) (s : State) : Reply :=
  match r.natArg 4 0 127 with
  | none => .refused .argument
  | some start =>
    match compareArg r with
    | none => .refused .argument
    | some k => .done (findValues s k start) s

/-! ## READ_ACCOUNT (09 R157) -/

/-- The ACCOUNT snapshot (09 R157). -/
def accountSnapshot (s : State) (i : SlotNo) : AccountSnapshot :=
  { slot := i
    account := s.account i
    linked := lowest (linksTo s i)
    episodes := s.episodes.countP (Episode.ofSlot i)
    openNumber := (openEpisode s (.exceedance i)).map (·.number) }

/-- READ_ACCOUNT's check and snapshot (09 R157). -/
def performReadAccount (r : Request) (s : State) : Reply :=
  match index? 128 r.target with
  | none => .refused .argument
  | some i =>
    .read [num i, num (s.account i).state.number, (s.account i).cfgRev.setWidth 32] (.account (accountSnapshot s i))

end Sys2Proof.Machine
end

