-- ==== Sys2Proof/Machine/Monitor.lean ====
section
/-! DEFINITION. The Stack Monitor: FEED lines, debounce, minute marks and its three requests (03 R48 to R57). -/

namespace Sys2Proof.Machine

/-- A stack input record. -/
def State.input (s : State) (i : StackNo) : StackInput := s.inputs.get i

/-- The state with one stack input record replaced. -/
def State.setInput (s : State) (i : StackNo) (r : StackInput) : State := { s with inputs := put s.inputs i r }

/-- The level of a FEED line. -/
def State.feedLine (s : State) (i : StackNo) : Bool := s.feedLines.get i

/-- The marks that a state sets (03 R56, R57). -/
def StackState.marks : StackState → Marks
  | .off => ⟨false, false⟩
  | .firing => ⟨true, false⟩
  | .abnormal => ⟨true, true⟩

/-- The marks of the open minute grow with the state and are not cleared (03 R56). -/
def StackInput.grow (r : StackInput) : StackInput :=
  { r with openMarks := ⟨r.openMarks.fired || r.state.marks.fired, r.openMarks.abnormal || r.state.marks.abnormal⟩ }

/-- Every stack's open-minute marks become its frozen marks and new ones start from the present state (03 R57). -/
def freezeMarks (s : State) : State :=
  { s with inputs := tabulate (fun i =>
      let r := s.input i
      { r with frozen := some r.openMarks, openMarks := r.state.marks }) }

/-- The frozen marks are dropped and the open minute's marks start from the present state: SET_CALENDAR and RESUME
(03 R57). -/
def startMarks (s : State) : State :=
  { s with inputs := tabulate (fun i =>
      let r := s.input i
      { r with frozen := none, openMarks := r.state.marks }) }

/-- The timer of a stack after a change or a sample of its line: running from now when the line stands opposite to the
taken level, idle otherwise (03 R50). -/
def StackInput.lineTimer (r : StackInput) (now : Nat) (level : Bool) : Option Nat :=
  if level != r.takenOn then some (now + r.debounce) else none

/-- The record after a debounce expiry: the opposite level is taken and the state changes (03 R51). -/
def StackInput.takeLevel (r : StackInput) : StackInput :=
  if r.takenOn then { r with takenOn := false, state := .off, declaration := none, timer := none }
  else { r with takenOn := true, state := .firing, timer := none }.grow

/-! ## Requests -/

/-- The record after SET_FEED_INPUT passes (03 R53). -/
def StackInput.configure (r : StackInput) (enable : Bool) (debounce now : Nat) (line : Bool) : StackInput :=
  let stored := { r with enable := enable, debounce := debounce }
  match r.enable, enable with
  | true, true => stored
  | true, false => { stored with timer := none, takenOn := false, state := .off, declaration := none }
  | false, true => { stored with timer := stored.lineTimer now line }
  | false, false => stored

/-- SET_FEED_INPUT's checks and effect (03 R53). -/
def performSetFeedInput (r : Request) (s : State) : Reply :=
  match index? 4 r.target, r.natArg 1 0 1, r.natArg 2 1 15 with
  | some i, some enable, some debounce =>
    let old := s.input i
    let new := old.configure (enable == 1) debounce s.now (s.feedLine i)
    .done [num i, num old.enable.toNat, num new.state.number] (s.setInput i new)
  | _, _, _ => .refused .argument

/-- The declared-at stamp: the open minute in RUN, the null stamp otherwise (03 R54). -/
def declaredAt (c : Clock) : MinuteStamp := if c.state = .run then c.position else .null

/-- DECLARE_ABNORMAL's checks and effect (03 R54). -/
def performDeclareAbnormal (r : Request) (s : State) : Reply :=
  match index? 4 r.target with
  | none => .refused .argument
  | some i =>
    let old := s.input i
    if old.state = .firing then
      let stamp := declaredAt s.clock
      .done [num i, stamp.word] (s.setInput i { old with state := .abnormal, declaration := some stamp }.grow)
    else .refused .state

/-- END_ABNORMAL's checks and effect (03 R55). The declaration is always present in ABNORMAL (03 R48). -/
def performEndAbnormal (r : Request) (s : State) : Reply :=
  match index? 4 r.target with
  | none => .refused .argument
  | some i =>
    let old := s.input i
    if old.state = .abnormal then
      .done [num i, (old.declaration.getD .null).word]
        (s.setInput i { old with state := .firing, declaration := none }.grow)
    else .refused .state

/-! ## Power-on and restart -/

/-- The input record after power-on or restart: enable and debounce time are kept, and an enabled stack whose line is on
starts its timer (03 R48). -/
def StackInput.restarted (r : StackInput) (now : Nat) (line : Bool) : StackInput :=
  { StackInput.reset with
    enable := r.enable
    debounce := r.debounce
    timer := if r.enable && line then some (now + r.debounce) else none }

end Sys2Proof.Machine
end

