-- ==== Sys2Proof/Machine/PeriodClock.lean ====
section
/-! DEFINITION. The Period Clock: boundaries, grace, supervision, the end of the calendar range and the three clock
requests (04 R67 to R80, R84, R85). -/

namespace Sys2Proof.Machine

/-- Time reaches the second t; it never runs back (assumption 2). -/
def advanceTo (t : Nat) (s : State) : State := { s with now := max s.now t }

/-- The minute in grace, when one is present, is collected, and is no longer in grace; its grace timer goes idle
(04 R71 step 1, R72). -/
def collectGrace (s : State) : State :=
  match s.clock.inGrace with
  | some g =>
    let t := collectMinute g.stamp g.internal s
    { t with clock := { t.clock with inGrace := none, graceTimer := none } }
  | none => s

/-- Steps 2 to 5 of a boundary (04 R71). -/
def startGrace (internal : Bool) (s : State) : State :=
  let t := freezeMarks s
  let t := { t with clock :=
      { t.clock with
        inGrace := some ⟨t.clock.position, internal⟩
        position := t.clock.position.next
        graceTimer := some (t.now + t.clock.graceSetting) } }
  if t.clock.graceSetting = 0 then collectGrace t else t

/-- Step 6 of a boundary (04 R71). -/
def restartSupervision (internal : Bool) (s : State) : State :=
  { s with clock :=
      { s.clock with
        supervision := some (s.now + (if internal then Config.internalMinute else Config.supervisionTimeout))
        reference := some s.now } }

/-- Steps 2 to 5 of the boundary in the last minute of 2199 (04 R76). The boundary reference is left as it was
(assumption 17). -/
def endOfRange (internal : Bool) (s : State) : State :=
  let t := collectMinute s.clock.position internal (freezeMarks s)
  { t with clock :=
      { t.clock with
        state := .hold
        saved := some t.clock.position
        rangeEnd := true
        graceTimer := none
        supervision := none } }

/-- Taking a boundary (04 R71; R76 in the last minute of the calendar range). -/
def boundary (internal : Bool) (s : State) : State :=
  let t := collectGrace s
  if t.clock.position = lastMinute then endOfRange internal t
  else restartSupervision internal (startGrace internal t)

/-- The state with the time source replaced. -/
def setSource (src : TimeSource) (s : State) : State := { s with clock := { s.clock with source := src } }

/-- Whether the boundary reference is under 30 s before now (04 R73). -/
def earlyPulse (s : State) : Bool :=
  match s.clock.reference with
  | some t => decide (s.now < t + Config.earlyPulseThreshold)
  | none => false

/-- A pulse under 30 s after an internal boundary: no boundary, the source becomes EXTERNAL, supervision restarts for 65 s
and the reference becomes now (04 R73). -/
def returningPulse (s : State) : State := restartSupervision false (setSource .external s)

/-- CLOCK_LOST and the change of source at a supervision expiry (04 R74). -/
def loseClock (s : State) : State :=
  match s.clock.source with
  | .external => raiseEvent .clockLost 0 (setSource .internal s)
  | .internal => s

/-! ## Requests -/

/-- SET_GRACE's check and effect (04 R78). -/
def performSetGrace (r : Request) (s : State) : Reply :=
  match r.natArg 1 0 30 with
  | some g => .done [num s.clock.graceSetting] { s with clock := { s.clock with graceSetting := g } }
  | none => .refused .argument

/-- Arguments 1 to 3 as a calendar minute (04 R79 check 1, R84 check 2). -/
def minuteArg (r : Request) : Option MinuteStamp :=
  match r.arg 1, r.arg 2, r.arg 3 with
  | some y, some d, some m => if calendarMinute y d m then some ⟨y.toNat, d.toNat, m.toNat⟩ else none
  | _, _, _ => none

/-- An account in service or with a closed year: ACTIVE, FROZEN or LAPSED (04 R79 check 2). -/
def Account.inService (a : Account) : Bool :=
  a.state == .active || a.state == .frozen || a.state == .lapsed

/-- A slot at SET_CALENDAR (02 R45). -/
def PostingSlot.discardCalendar (p : PostingSlot) : PostingSlot :=
  if p.loaded then { p with loaded := false, code := .discardedCalendar } else p

/-- A slot at RESUME: emptied, with its record and result code as they stand (02 R45). -/
def PostingSlot.emptied (p : PostingSlot) : PostingSlot := { p with loaded := false }

/-- Every posting slot changed alike. -/
def mapSlots (f : PostingSlot → PostingSlot) (s : State) : State :=
  { s with slots := tabulate (fun c => ⟨f (s.slotPair c).x, f (s.slotPair c).y⟩) }

/-- The clock enters RUN with a position, source EXTERNAL, no reference, nothing in grace and 65 s of supervision
(04 R80, R85). -/
def enterRun (p : MinuteStamp) (s : State) : State :=
  { s with clock :=
      { s.clock with
        state := .run
        position := p
        source := .external
        inGrace := none
        graceTimer := none
        supervision := some (s.now + Config.supervisionTimeout)
        reference := none } }

/-- The changes of a passing SET_CALENDAR (04 R80, 02 R45, 03 R57, 05 R97). -/
def stateCalendar (p : MinuteStamp) (s : State) : State :=
  let t := startMarks (restartHalfHour (mapSlots PostingSlot.discardCalendar s))
  let t := { t with clock := { t.clock with calendarSet := true, rangeEnd := false, saved := some p } }
  enterRun p t

/-- SET_CALENDAR's checks and effect (04 R79, R80). -/
def performSetCalendar (r : Request) (s : State) : Reply :=
  match minuteArg r with
  | none => .refused .argument
  | some p =>
    if anyOf (fun i => (s.account i).inService) then .refused .inUse
    else if !s.queue.isEmpty then .refused .backlog
    else .done [num s.clock.state.number] (stateCalendar p s)

/-- An accumulator that starts with n operating minutes of class MISSING (04 R85 step 3). -/
def Accumulator.startMissing (n : Nat) : Accumulator := { Accumulator.empty with operating := n, missing := n }

/-- Steps 2 to 5 of a passing RESUME (04 R85). -/
def resumeAt (p : MinuteStamp) (s : State) : State :=
  let n := p.minute - 30 * (p.minute / 30)
  let t := startMarks (mapSlots PostingSlot.emptied s)
  enterRun p { t with
    accumulators := Vector.replicate 48 (.startMissing n)
    counts := Vector.replicate 4 .zero }

/-- RESUME's checks and effect (04 R84, R85, 06 R109). A clock in HOLD always has a saved position; without one the
request is refused with ARGUMENT (assumption 18). -/
def performResume (r : Request) (s : State) : Reply :=
  if s.clock.state ≠ .hold then .refused .state
  else
    match minuteArg r, s.clock.saved with
    | some p, some saved =>
      if s.clock.rangeEnd then .refused .argument
      else if p.before saved then .refused .argument
      else
        let gap := p.halfHour.count - saved.halfHour.count
        if Config.gapLimit < gap then .refused .argument
        else
          let t := if gap = 0 then s else takeUp .engine (appendGap saved.halfHour gap s)
          .done [num gap, saved.word] (resumeAt p t)
    | _, _ => .refused .argument

end Sys2Proof.Machine
end

