-- ==== Sys2Proof/Machine/Stacks.lean ====
section
/-! DEFINITION. The two stack requests of the engine: SET_ALLOWANCE and READ_STACK (03 R63, R65). -/

namespace Sys2Proof.Machine

/-! ## SET_ALLOWANCE (03 R63) -/

/-- An allowance record with its two allowances stored (03 R63). -/
def StackAllowance.withAllowances (r : StackAllowance) (episode annual : Nat) : StackAllowance :=
  { r with episodeAllowance := episode, annualAllowance := annual }

/-- Both allowances stored, and the STOP demand evaluated while the stack has a run (03 R63). -/
def storeAllowances (i : StackNo) (episode annual : Nat) (s : State) : State :=
  let t := s.setAllowance i ((s.allowance i).withAllowances episode annual)
  if 1 ≤ (s.allowance i).runHh then evaluateStop i t else t

/-- SET_ALLOWANCE's checks and effect (03 R63). -/
def performSetAllowance (r : Request) (s : State) : Reply :=
  match index? 4 r.target, r.natArg 1 1 96, r.natArg 2 0 2000 with
  | some i, some episode, some annual =>
    let t := storeAllowances i episode annual s
    let d := (t.allowance i).demand
    .done [num i, num d.asserted.toNat, num d.reason] t
  | _, _, _ => .refused .argument

/-! ## READ_STACK (03 R65) -/

/-- The STACK snapshot (03 R65). -/
def stackSnapshot (s : State) (i : StackNo) : StackSnapshot :=
  { stack := i, input := s.input i, line := s.feedLine i, allowance := s.allowance i }

/-- READ_STACK's check and snapshot (03 R65). -/
def performReadStack (r : Request) (s : State) : Reply :=
  match index? 4 r.target with
  | none => .refused .argument
  | some i =>
    .read [num i, num (s.input i).state.number, num (s.allowance i).demand.number] (.stack (stackSnapshot s i))

end Sys2Proof.Machine
end

