-- ==== Sys2Proof/Machine/Requests.lean ====
section
/-! DEFINITION. The performance of requests in the order in which their owners took them, and the 27 request rows (07 R115,
R117, 10 R170, R171, R173). -/

namespace Sys2Proof.Machine

/-! ## What is in hand -/

/-- What the owner of a request answers to it (10 R166). -/
def performRequest : RequestCode → Request → State → Reply
  | .createAccount => performCreateAccount
  | .setLimits => performSetLimits
  | .linkSource => performLinkSource
  | .activate => performActivate
  | .amend => performAmend
  | .reassign => performReassign
  | .retire => performRetire
  | .deleteDraft => performDeleteDraft
  | .certify => performCertify
  | .mark => performMark
  | .configureChannel => performConfigureChannel
  | .startChannel => performStartChannel
  | .stopChannel => performStopChannel
  | .releaseChannel => performReleaseChannel
  | .readChannel => performReadChannel
  | .setAllowance => performSetAllowance
  | .readStack => performReadStack
  | .ackEpisode => performAckEpisode
  | .readEpisode => performReadEpisode
  | .find => performFind
  | .readAccount => performReadAccount
  | .setFeedInput => performSetFeedInput
  | .declareAbnormal => performDeclareAbnormal
  | .endAbnormal => performEndAbnormal
  | .setGrace => performSetGrace
  | .setCalendar => performSetCalendar
  | .resume => performResume

/-- The request that an owner has in hand, with its port and code. -/
def handRequest (s : State) (o : Owner) : Option (Port × RequestCode × Request) :=
  match inHand s o with
  | none => none
  | some p =>
    match waitingAt s o p with
    | none => none
    | some r => (RequestCode.ofByte r.code).map (fun c => (p, c, r))

/-- The request that an owner has in hand is performed whole and completed, and the owner takes the next (10 R170, R171). -/
def completeInHand (o : Owner) (s : State) : State :=
  match handRequest s o with
  | some (p, c, r) => finish o (answer p r.code (performRequest c r s) s)
  | none => s

/-- The request in hand that was taken first is completed. -/
def completeFirst (s : State) : State :=
  match s.handOrder with
  | o :: _ => completeInHand o s
  | [] => s

/-- Every request in hand is completed, in the order of taking, and what its owner takes behind it likewise: two at most,
one from each port (10 R170). An event of the Period Clock, the Minute Collector or the Stack Monitor, and the orderly stop,
thereby fall wholly after every request that was taken before them, whose effect is the one it had when it was taken (07
R115, R117, 04 R77, R78, R81). That such a request is also answered by then is the model's (DESIGN CHOICE, assumption
25). -/
def completeAll (s : State) : State := completeFirst (completeFirst s)

/-- The requests that read or change what another owner's requests change or read: the clock, the queue, the links, the
posting slots, the accounts in service, the stack input records (01 R16, R26, 02 R37, 03 R54, R55, R53, R57, R65, 04 R79, R80,
R84, R85, 10 R170). -/
def RequestCode.crossesOwners : RequestCode → Bool
  | .activate | .amend | .reassign | .retire | .certify | .stopChannel | .readStack | .setFeedInput | .declareAbnormal
  | .endAbnormal | .setCalendar | .resume => true
  | .createAccount | .setLimits | .linkSource | .deleteDraft | .mark | .configureChannel | .startChannel | .releaseChannel
  | .readChannel | .setAllowance | .ackEpisode | .readEpisode | .find | .readAccount | .setGrace => false

/-- Whether an owner has a request in hand that crosses owners. -/
def handCrosses (s : State) (o : Owner) : Bool :=
  match handRequest s o with
  | some (_, c, _) => c.crossesOwners
  | none => false

/-- The first request in hand that crosses owners and was taken before that of an owner, or was taken at all where that owner
has no request in hand, is completed. -/
def completeEarlierFirst (o : Owner) (s : State) : State :=
  match (s.handOrder.takeWhile (· != o)).find? (handCrosses s) with
  | some q => completeInHand q s
  | none => s

/-- What an owner's request or absorption finds: the requests that cross owners and that other owners took before it are
completed first, two at most, so that each has the effect it had when it was taken (06 R110, 07 R115, 04 R77; assumption
25). -/
def completeEarlier (o : Owner) (s : State) : State := completeEarlierFirst o (completeEarlierFirst o s)

/-- The owner performs the request it has in hand or takes, when it is one of code c, whole, and completes it. Otherwise the
event does not arise and nothing changes (assumption 1). -/
def runRequest (c : RequestCode) (perform : Request → State → Reply) (s : State) : Answer :=
  match takenRequest s c with
  | none => .next s
  | some (p, r) =>
    let t := completeEarlier c.owner s
    .next (finish c.owner (answer p r.code (perform r t) t))

/-! ## The request rows -/

/-- CREATE_ACCOUNT (01 R17). -/
def execCreateAccount (s : State) : Answer := runRequest .createAccount performCreateAccount s

/-- SET_LIMITS (01 R18). -/
def execSetLimits (s : State) : Answer := runRequest .setLimits performSetLimits s

/-- LINK_SOURCE (01 R19). -/
def execLinkSource (s : State) : Answer := runRequest .linkSource performLinkSource s

/-- ACTIVATE (01 R20). -/
def execActivate (s : State) : Answer := runRequest .activate performActivate s

/-- AMEND (01 R21). -/
def execAmend (s : State) : Answer := runRequest .amend performAmend s

/-- REASSIGN (01 R23). -/
def execReassign (s : State) : Answer := runRequest .reassign performReassign s

/-- RETIRE (01 R24). -/
def execRetire (s : State) : Answer := runRequest .retire performRetire s

/-- DELETE_DRAFT (01 R25). -/
def execDeleteDraft (s : State) : Answer := runRequest .deleteDraft performDeleteDraft s

/-- CERTIFY (01 R26). -/
def execCertify (s : State) : Answer := runRequest .certify performCertify s

/-- MARK (09 R162). -/
def execMark (s : State) : Answer := runRequest .mark performMark s

/-- CONFIGURE_CHANNEL (02 R34). -/
def execConfigureChannel (s : State) : Answer := runRequest .configureChannel performConfigureChannel s

/-- START_CHANNEL (02 R36). -/
def execStartChannel (s : State) : Answer := runRequest .startChannel performStartChannel s

/-- STOP_CHANNEL (02 R37). -/
def execStopChannel (s : State) : Answer := runRequest .stopChannel performStopChannel s

/-- RELEASE_CHANNEL (02 R38). -/
def execReleaseChannel (s : State) : Answer := runRequest .releaseChannel performReleaseChannel s

/-- READ_CHANNEL (02 R39). -/
def execReadChannel (s : State) : Answer := runRequest .readChannel performReadChannel s

/-- SET_ALLOWANCE (03 R63). -/
def execSetAllowance (s : State) : Answer := runRequest .setAllowance performSetAllowance s

/-- READ_STACK (03 R65). -/
def execReadStack (s : State) : Answer := runRequest .readStack performReadStack s

/-- ACK_EPISODE (08 R149). -/
def execAckEpisode (s : State) : Answer := runRequest .ackEpisode performAckEpisode s

/-- READ_EPISODE (08 R151). -/
def execReadEpisode (s : State) : Answer := runRequest .readEpisode performReadEpisode s

/-- FIND (09 R158). -/
def execFind (s : State) : Answer := runRequest .find performFind s

/-- READ_ACCOUNT (09 R157). -/
def execReadAccount (s : State) : Answer := runRequest .readAccount performReadAccount s

/-- SET_FEED_INPUT (03 R53). -/
def execSetFeedInput (s : State) : Answer := runRequest .setFeedInput performSetFeedInput s

/-- DECLARE_ABNORMAL (03 R54). -/
def execDeclareAbnormal (s : State) : Answer := runRequest .declareAbnormal performDeclareAbnormal s

/-- END_ABNORMAL (03 R55). -/
def execEndAbnormal (s : State) : Answer := runRequest .endAbnormal performEndAbnormal s

/-- SET_GRACE (04 R78). -/
def execSetGrace (s : State) : Answer := runRequest .setGrace performSetGrace s

/-- SET_CALENDAR (04 R79). -/
def execSetCalendar (s : State) : Answer := runRequest .setCalendar performSetCalendar s

/-- RESUME (04 R84). -/
def execResume (s : State) : Answer := runRequest .resume performResume s

end Sys2Proof.Machine
end

