-- ==== Sys2Proof/Machine/Absorption.lean ====
section
/-! DEFINITION. The engine's absorption of queue entries: RESULT, STACK, DAY_END, YEAR_END and gap (03 R61 to R64, 07). -/

namespace Sys2Proof.Machine

/-- The queue head when the engine's next claim is its absorption (07 R116, 06 R105). -/
def claimedHead (s : State) : Option Entry :=
  match nextClaim s with
  | some .entry => s.queue.head?
  | some (.request _) | none => none

/-- The absorption completes: the head is removed, the claim ends, and the engine takes the next (06 R105, 07 R114, R116). -/
def removeHead (s : State) : State :=
  takeUp .engine { s with queue := s.queue.tail, inFlight := none, lastClaim := .entry }

/-- The absorption of the queue head as one claim: requests that cross owners and were taken before it completes come first
(06 R110, 07 R115), then the entry's effect, then the removal of the head. -/
def absorbHead (effect : State → State) (s : State) : State := removeHead (effect (completeEarlier .engine s))

/-! ## RESULT entries (07 R120 to R125) -/

/-- The validated value: the raw average less ci, not below zero (07 R121 step 1). -/
def validated (raw : Int) (ci : Nat) : Nat := (raw - ci).toNat

/-- The max validated half-hour with one more value (07 R123). -/
def maxWith (old : Option MaxHalfHour) (v : Nat) (stamp : HalfHourStamp) : MaxHalfHour :=
  match old with
  | some m => if m.value < v then ⟨v, stamp⟩ else m
  | none => ⟨v, stamp⟩

/-- Steps 2 to 4 and 6 of 07 R121 on the current side. -/
def countValid (t : Terms) (v : Nat) (stamp : HalfHourStamp) (c : CurrentSide) : CurrentSide :=
  let overShort := match t.short with
    | some l => decide (l < v)
    | none => false
  let overPct := match t.pct with
    | some l => decide (l.limit < v)
    | none => false
  { c with
    day := { c.day with
      hhValid := c.day.hhValid + 1
      sum := c.day.sum + v
      hhOverShort := c.day.hhOverShort + overShort.toNat }
    year := { c.year with
      hhValid := c.year.hhValid + 1
      hhOverShort := c.year.hhOverShort + overShort.toNat
      hhOverPct := c.year.hhOverPct + overPct.toNat
      maxHalfHour := some (maxWith c.year.maxHalfHour v stamp) } }

/-- Step 5 of 07 R121: the account's EXCEEDANCE episode (07 R122). -/
def validEpisode (slot : SlotNo) (t : Terms) (v : Nat) (stamp : HalfHourStamp) (s : State) : State :=
  match t.short with
  | some l =>
    if l < v then qualify (.exceedance slot) stamp (some v) s
    else endEpisodes (· == .exceedance slot) stamp s
  | none => s

/-- hh_abnormal in both parts (07 R124). -/
def countAbnormal (c : CurrentSide) : CurrentSide :=
  { c with
    day := { c.day with hhAbnormal := c.day.hhAbnormal + 1 }
    year := { c.year with hhAbnormal := c.year.hhAbnormal + 1 } }

/-- hh_invalid in both parts (07 R124). -/
def countInvalid (c : CurrentSide) : CurrentSide :=
  { c with
    day := { c.day with hhInvalid := c.day.hhInvalid + 1 }
    year := { c.year with hhInvalid := c.year.hhInvalid + 1 } }

/-- hh_excluded in both parts (07 R124). -/
def countExcluded (c : CurrentSide) : CurrentSide :=
  { c with
    day := { c.day with hhExcluded := c.day.hhExcluded + 1 }
    year := { c.year with hhExcluded := c.year.hhExcluded + 1 } }

/-- hh_internal and the mark INTERNAL_TIME (07 R125). -/
def countInternal (c : CurrentSide) : CurrentSide :=
  { c.addMark .internalTime with year := { c.year with hhInternal := c.year.hhInternal + 1 } }

/-- The internal flag's counting, for every class (07 R125). -/
def absorbInternal (e : ResultEntry) (s : State) : State := if e.internal then s.updCurrent e.slot countInternal else s

/-- The counting of an entry by its class and abnormal flag (07 R120). An EXCLUDED entry never carries the abnormal flag
(05 R98); the flag is not read for it. -/
def absorbClass (e : ResultEntry) (s : State) : State :=
  let terms := (s.account e.slot).terms
  match e.cls, e.abnormal with
  | .valid raw, false =>
    let v := validated raw terms.ci
    validEpisode e.slot terms v e.stamp (s.updCurrent e.slot (countValid terms v e.stamp))
  | .valid _, true => s.updCurrent e.slot countAbnormal
  | .invalid, _ => s.updCurrent e.slot countInvalid
  | .excluded, _ => endEpisodes (· == .exceedance e.slot) e.stamp (s.updCurrent e.slot countExcluded)

/-- A RESULT entry absorbed into the current side of the account it names (07 R120), whatever state the account is in (01
R27). An account without a current side has no figure that the entry could enter and no episode: nothing of it changes
(DESIGN CHOICE, assumption 18). An entry names a slot (05 R100): where its account has left the slot and another with a
current side is in it, the entry enters that side (DESIGN CHOICE, assumption 28). -/
def absorbResult (e : ResultEntry) (s : State) : State :=
  if (s.account e.slot).current.isSome then absorbInternal e (absorbClass e s) else s

/-- RESULT_ABSORPTION (07 R120). When the next claim is not the absorption of a RESULT head, the event does not arise
(assumption 1). -/
def execResultAbsorption (s : State) : Answer :=
  match claimedHead s with
  | some (.result e) => .next (absorbHead (absorbResult e) s)
  | some (.stack _) | some (.dayEnd _ _) | some (.yearEnd _) | some (.gap _) | none => .next s

/-! ## STACK entries (03 R61, R62) -/

/-- One more half-hour of the run and of the year; run_hh stops at 65535 (03 R58, R61 step 1). R58 gives year_abn_hh the
range 0 to 17,568 and no stop there; beyond it the model counts on (DESIGN CHOICE, assumption 24). -/
def StackAllowance.countAbnormal (r : StackAllowance) : StackAllowance :=
  { r with runHh := min 65535 (r.runHh + 1), yearAbnHh := r.yearAbnHh + 1 }

/-- The run ends, if there is one, and the demand is released (03 R62 steps 1 and 3). R58 gives episodes this year the range
0 to 8,784 and no stop there; beyond it the model counts on (DESIGN CHOICE, assumption 24). -/
def StackAllowance.endRun (r : StackAllowance) : StackAllowance :=
  { r with
    episodesYear := r.episodesYear + (if 1 ≤ r.runHh then 1 else 0)
    longestRun := if 1 ≤ r.runHh then max r.longestRun r.runHh else r.longestRun
    runHh := 0
    demand := .released }

/-- The last half-hour (03 R61, R62 step 4). -/
def setLast (e : StackEntry) (s : State) : State :=
  s.setAllowance e.stack { s.allowance e.stack with last := some ⟨e.stamp, e.fired, e.abnormal⟩ }

/-- A STACK entry absorbed into the stack's allowance record (03 R61, R62). -/
def absorbStack (e : StackEntry) (s : State) : State :=
  if 1 ≤ e.abnormal then
    let t := s.setAllowance e.stack (s.allowance e.stack).countAbnormal
    let t := qualify (.abnormalOperation e.stack) e.stamp none t
    setLast e (evaluateStop e.stack t)
  else
    let t := endEpisodes (· == .abnormalOperation e.stack) e.stamp s
    setLast e (t.setAllowance e.stack (t.allowance e.stack).endRun)

/-- STACK_ENTRY_ABSORPTION (03 R61, R62); otherwise as in assumption 1. -/
def execStackEntryAbsorption (s : State) : Answer :=
  match claimedHead s with
  | some (.stack e) => .next (absorbHead (absorbStack e) s)
  | some (.result _) | some (.dayEnd _ _) | some (.yearEnd _) | some (.gap _) | none => .next s

/-! ## The day close (07 R126 to R130) -/

/-- The outcomes of a day (07 R127). -/
inductive DayOutcome where
  | valid
  | invalid
  | abnormalOnly
  | excluded
deriving DecidableEq, Repr

/-- hh_valid, hh_invalid, hh_excluded, hh_abnormal and hh_gap are all 0 (07 R126). -/
def DayPart.isEmpty (d : DayPart) : Bool :=
  d.hhValid == 0 && d.hhInvalid == 0 && d.hhExcluded == 0 && d.hhAbnormal == 0 && d.hhGap == 0

/-- Activated on or before day D of year Y. -/
def activatedBy (a : Account) (Y D : Nat) : Bool :=
  match a.activatedAt with
  | some h => decide (h.year < Y) || (h.year == Y && decide (h.day ≤ D))
  | none => false

/-- Whether a DAY_END of day D of year Y applies to an account (07 R126). -/
def dayEndApplies (a : Account) (Y D : Nat) : Bool :=
  match a.state, a.current with
  | .active, some _ => activatedBy a Y D
  | .frozen, some c => !c.day.isEmpty
  | _, _ => false

/-- 07 R127. -/
def dayOutcome (t : Terms) (d : DayPart) : DayOutcome :=
  if d.hhValid + d.hhInvalid + d.hhAbnormal + d.hhGap = 0 then .excluded
  else if t.maxInvalid < d.hhInvalid + d.hhGap ∨ (d.hhValid = 0 ∧ d.hhAbnormal = 0) then .invalid
  else if d.hhValid = 0 then .abnormalOnly
  else .valid

/-- The day average of a VALID day (07 R127). -/
def dayAverage (d : DayPart) : Nat := (roundDiv d.sum d.hhValid).toNat

/-- The max day average with one more day (07 R128). -/
def maxDayWith (old : Option MaxDay) (avg day : Nat) : MaxDay :=
  match old with
  | some m => if m.average < avg then ⟨avg, day⟩ else m
  | none => ⟨avg, day⟩

/-- The year part after a day of a certain outcome (07 R128). -/
def YearPart.countDay (y : YearPart) (t : Terms) (d : DayPart) (D : Nat) : DayOutcome → YearPart
  | .valid =>
    let avg := dayAverage d
    let above := match t.day with
      | some l => decide (l < avg)
      | none => false
    { y with
      daysValid := y.daysValid + 1
      daysOver := y.daysOver + above.toNat
      maxDay := some (maxDayWith y.maxDay avg D) }
  | .invalid => { y with daysInvalid := y.daysInvalid + 1 }
  | .abnormalOnly => { y with daysAbnormal := y.daysAbnormal + 1 }
  | .excluded => { y with daysExcluded := y.daysExcluded + 1 }

/-- Whether the close takes days_invalid from the allowance to one above it (07 R129). -/
def passesAllowance (t : Terms) (c : CurrentSide) : Bool :=
  decide (dayOutcome t c.day = .invalid) && c.year.daysInvalid == t.allowance

/-- The current side after the close of day D of year Y (07 R127 to R130). -/
def closeDaySide (t : Terms) (Y D : Nat) (c : CurrentSide) : CurrentSide :=
  { day := .empty (if D = daysInYear Y then 1 else D + 1)
    year := c.year.countDay t c.day D (dayOutcome t c.day)
    marks := if passesAllowance t c then c.marks.add .allowanceExceeded else c.marks }

/-- The day close of one account (07 R127 to R130). -/
def closeDayOf (Y D : Nat) (slot : SlotNo) (s : State) : State :=
  let a := s.account slot
  match a.current with
  | some c =>
    if dayEndApplies a Y D then
      let t := s.setAccount slot { a with current := some (closeDaySide a.terms Y D c) }
      if passesAllowance a.terms c then raiseEvent .allowance slot t else t
    else s
  | none => s

/-- The day close over every account to which it applies, in ascending slot order, and DAY_CLOSED (07 R126, R130). -/
def closeDay (Y D : Nat) (s : State) : State := raiseEvent .dayClosed D (forEach 128 (closeDayOf Y D) s)

/-- DAY_END_ABSORPTION (07 R126); otherwise as in assumption 1. -/
def execDayEndAbsorption (s : State) : Answer :=
  match claimedHead s with
  | some (.dayEnd Y D) => .next (absorbHead (closeDay Y D) s)
  | some (.result _) | some (.stack _) | some (.yearEnd _) | some (.gap _) | none => .next s

/-! ## The year close (07 R131 to R134, 03 R64) -/

/-- The verdict of a year part (01 R15). -/
def verdictOf (t : Terms) (y : YearPart) : Verdict :=
  { shortMet := t.short.isNone || y.hhOverShort == 0
    pctMet := match t.pct with
      | some l => decide (y.hhOverPct * 1000 ≤ l.share * y.hhValid)
      | none => true
    dayMet := t.day.isNone || y.daysOver == 0
    availabilityMet := decide (y.daysInvalid ≤ t.allowance) }

/-- Whether a YEAR_END of year Y applies to an account (07 R131). -/
def yearEndApplies (a : Account) (Y : Nat) : Bool :=
  (a.state == .active || a.state == .frozen) && a.current.isSome &&
    (match a.activatedAt with
      | some h => decide (h.year ≤ Y)
      | none => false)

/-- The closed side made from a current side; a HELD closed side below it is overwritten and marked (07 R132, R133). -/
def closeSide (a : Account) (Y : Nat) (c : CurrentSide) : ClosedSide :=
  { yearNo := Y
    year := c.year
    marks := if a.closed.isSome then c.marks.add .priorUncertified else c.marks
    verdict := verdictOf a.terms c.year }

/-- An account after its year is closed: ACTIVE with a new current side, or LAPSED from FROZEN (07 R132 to R134). -/
def closeYearAccount (a : Account) (Y : Nat) (c : CurrentSide) : Account :=
  let held := { a with closed := some (closeSide a Y c) }
  match a.state with
  | .frozen => { held with state := .lapsed, current := none }
  | .free | .draft | .active | .lapsed => { held with current := some (.fresh 1 0) }

/-- The year close of one account (07 R131 steps 2 and 3). -/
def closeYearOf (Y : Nat) (slot : SlotNo) (s : State) : State :=
  let a := s.account slot
  match a.current with
  | some c =>
    if yearEndApplies a Y then
      let t := s.setAccount slot (closeYearAccount a Y c)
      if a.closed.isSome then raiseEvent .priorUncertified slot t else t
    else s
  | none => s

/-- An EXCEEDANCE subject. -/
def Subject.isExceedance : Subject → Bool
  | .exceedance _ => true
  | .abnormalOperation _ => false

/-- The year move of one stack's figures (03 R64). -/
def StackAllowance.moveYear (r : StackAllowance) : StackAllowance :=
  { r with
    previous := ⟨r.yearAbnHh, r.episodesYear, r.longestRun, r.exceeded⟩
    yearAbnHh := 0
    episodesYear := 0
    longestRun := 0
    exceeded := false }

/-- The year move of all four stacks (03 R64). -/
def moveYear (s : State) : State := { s with allowances := tabulate (fun i => (s.allowance i).moveYear) }

/-- The year close (07 R131). -/
def closeYear (Y : Nat) (s : State) : State :=
  let t := endEpisodes Subject.isExceedance ⟨Y, daysInYear Y, 47⟩ s
  let n := countOf (fun i => yearEndApplies (t.account i) Y)
  raiseEvent .yearClosed n (moveYear (forEach 128 (closeYearOf Y) t))

/-- YEAR_END_ABSORPTION (07 R131); otherwise as in assumption 1. -/
def execYearEndAbsorption (s : State) : Answer :=
  match claimedHead s with
  | some (.yearEnd Y) => .next (absorbHead (closeYear Y) s)
  | some (.result _) | some (.stack _) | some (.dayEnd _ _) | some (.gap _) | none => .next s

/-! ## Gap entries (07 R135 to R137) -/

/-- hh_gap in both parts and the mark GAP_CHARGED (07 R135 step 1). -/
def countGap (c : CurrentSide) : CurrentSide :=
  { c.addMark .gapCharged with
    day := { c.day with hhGap := c.day.hhGap + 1 }
    year := { c.year with hhGap := c.year.hhGap + 1 } }

/-- One covered half-hour charged to one account, ACTIVE or FROZEN (07 R135 step 1). -/
def chargeGap (slot : SlotNo) (s : State) : State :=
  if (s.account slot).state = .active ∨ (s.account slot).state = .frozen then s.updCurrent slot countGap else s

/-- One covered half-hour (07 R135). -/
def walkHalfHour (charged : List SlotNo) (x : HalfHourStamp) (s : State) : State :=
  let t := charged.foldl (fun u slot => chargeGap slot u) s
  let t := if x.hh = 47 then closeDay x.year x.day t else t
  if x.hh = 47 ∧ x.day = daysInYear x.year then closeYear x.year t else t

/-- The walk of n covered half-hours from x on, in calendar order (07 R135). -/
def walkGap (charged : List SlotNo) : Nat → HalfHourStamp → State → State
  | 0, _, s => s
  | n + 1, x, s => walkGap charged n x.next (walkHalfHour charged x s)

/-- GAP_WALK (07 R135); otherwise as in assumption 1. -/
def execGapWalk (s : State) : Answer :=
  match claimedHead s with
  | some (.gap g) => .next (absorbHead (walkGap g.charged g.count g.start) s)
  | some (.result _) | some (.stack _) | some (.dayEnd _ _) | some (.yearEnd _) | none => .next s

end Sys2Proof.Machine
end

