-- ==== Sys2Proof/Machine/Posting.lean ====
section
/-! DEFINITION. The posting area: the selected slot, record writes, HAND_OVER and the older-slot indicator (02 R40 to R47,
12 R187). -/

namespace Sys2Proof.Machine

/-- Which of a channel's two slots. -/
inductive SlotName where
  | x
  | y
deriving DecidableEq, Repr

/-- A slot of a pair. -/
def SlotPair.get (p : SlotPair) : SlotName → PostingSlot
  | .x => p.x
  | .y => p.y

/-- A pair with one slot replaced. -/
def SlotPair.set (p : SlotPair) (n : SlotName) (slot : PostingSlot) : SlotPair :=
  match n with
  | .x => { p with x := slot }
  | .y => { p with y := slot }

/-- The other slot's name. -/
def SlotName.other : SlotName → SlotName
  | .x => .y
  | .y => .x

/-- The slot a slot select names, none above 1 (12 R187). -/
def slotName? (v : Byte) : Option SlotName :=
  if v.toNat = 0 then some .x else if v.toNat = 1 then some .y else none

/-- The slot that port A's posting pointer selects, none when a select is out of range (12 R187). -/
def selected (s : State) : Option (ChannelNo × SlotName) :=
  match index? 48 s.portA.channelSelect.toNat, slotName? s.portA.slotSelect with
  | some c, some n => some (c, n)
  | _, _ => none

/-- The state with one slot replaced. -/
def State.setSlot (s : State) (c : ChannelNo) (n : SlotName) (slot : PostingSlot) : State :=
  { s with slots := put s.slots c ((s.slotPair c).set n slot) }

/-! ## Record writes (02 R41) -/

/-- A value with its n-th byte from the lowest replaced (12 R187). -/
def replaceByte {w : Nat} (x : BitVec w) (n : Nat) (v : Byte) : BitVec w :=
  (x &&& ~~~(0xFF#w <<< (8 * n))) ||| (v.setWidth w <<< (8 * n))

/-- A record with the byte at a location of 0x62 to 0x6B replaced (12 R187). -/
def PostingSlot.writeByte (p : PostingSlot) (loc : Nat) (v : Byte) : PostingSlot :=
  if loc ≤ 0x63 then { p with year := replaceByte p.year (loc - 0x62) v }
  else if loc ≤ 0x65 then { p with day := replaceByte p.day (loc - 0x64) v }
  else if loc ≤ 0x67 then { p with minute := replaceByte p.minute (loc - 0x66) v }
  else if loc ≤ 0x6A then { p with value := replaceByte p.value (loc - 0x68) v }
  else { p with quality := v }

/-- A record write to the selected slot: ignored for a LOADED slot, with no slot selected and from the start of the orderly
stop (02 R41). -/
def recordWrite (loc : Nat) (v : Byte) (s : State) : State :=
  match selected s with
  | some (c, n) =>
    let slot := (s.slotPair c).get n
    if slot.loaded ∨ s.part ≠ .running then s else s.setSlot c n (slot.writeByte loc v)
  | none => s

/-! ## HAND_OVER (02 R42) -/

/-- Whether a stamp is the open minute or the minute in grace (02 R42 check 5). -/
def isCurrentMinute (c : Clock) (m : MinuteStamp) : Bool :=
  m == c.position || (match c.inGrace with
    | some g => m == g.stamp
    | none => false)

/-- The result code of a hand-over: that of the first check that fails, else ACCEPTED (02 R42). -/
def handOverCode (s : State) (c : ChannelNo) (n : SlotName) : ResultCode :=
  let slot := (s.slotPair c).get n
  let other := (s.slotPair c).get n.other
  if s.clock.state ≠ .run ∨ s.part ≠ .running then .refusedClock
  else if (s.channel c).state ≠ .collecting then .refusedChannel
  else if slot.loaded then .refusedNotEmpty
  else if 3 < slot.qualityCode then .refusedQuality
  else if !isCurrentMinute s.clock slot.stamp then .refusedStamp
  else if other.loaded ∧ other.stamp = slot.stamp then .refusedDuplicate
  else .accepted

/-- A HAND_OVER write (02 R42); ignored with no slot selected (R41). -/
def handOver (s : State) : State :=
  match selected s with
  | some (c, n) =>
    let slot := (s.slotPair c).get n
    let code := handOverCode s c n
    if code = .accepted then s.setSlot c n { slot with loaded := true, code := code }
    else raiseEvent .postingRefused c (s.setSlot c n { slot with code := code })
  | none => s

/-! ## Reads -/

/-- The older-slot indicator of a pair: 0 for X, 1 for Y (02 R47). -/
def SlotPair.older (p : SlotPair) : Nat := if p.y.stamp.before p.x.stamp then 1 else 0

/-- The bytes of the posting area from 0x62 to 0x6F for a slot of a pair (12 R187). The bits of 0x6B above the code are
open (assumption 6). -/
def slotBytes (p : SlotPair) (n : SlotName) : List Byte :=
  let slot := p.get n
  bitBytes 2 slot.year ++ bitBytes 2 slot.day ++ bitBytes 2 slot.minute ++ bitBytes 3 slot.value ++
  [Config.qualityReadback slot.quality ++ slot.quality.extractLsb' 0 4, 0, boolByte slot.loaded] ++
  natBytes 1 slot.code.number ++ natBytes 1 p.older

/-- A read of the posting area, 0x60 to 0x6F (12 R187). -/
def postingRead (loc : Nat) (s : State) : Byte :=
  if loc = 0x60 then s.portA.channelSelect
  else if loc = 0x61 then s.portA.slotSelect
  else
    match selected s with
    | some (c, n) => (slotBytes (s.slotPair c) n).getD (loc - 0x62) 0
    | none => 0

end Sys2Proof.Machine
end

