-- ==== Sys2Proof/Machine/Snapshots.lean ====
section
/-! DEFINITION. The bytes of the four snapshots (12 R186). -/

namespace Sys2Proof.Machine

/-- Stack in bits 4 to 7 and substance in bits 0 to 3. -/
def stackSubstanceByte (stack : StackNo) (substance : Fin 16) : Byte := BitVec.ofNat 4 stack.1 ++ BitVec.ofNat 4 substance.1

/-- A 32-bit value in four bytes, all ones when absent. -/
def wordBytesOr : Option Word32 → List Byte
  | some w => bitBytes 4 w
  | none => onesBytes 4

/-- A half-hour stamp in four bytes, all ones when absent. -/
def halfHourBytesOr (h : Option HalfHourStamp) : List Byte := wordBytesOr (h.map HalfHourStamp.word)

/-- Bit 0 fired, bit 1 abnormal. -/
def Marks.byte (m : Marks) : Byte := BitVec.ofNat 8 (m.fired.toNat + 2 * m.abnormal.toNat)

/-! ## ACCOUNT: 151 bytes -/

/-- The max day average and its day; all ones when absent. -/
def maxDayBytes : Option MaxDay → List Byte
  | some m => natBytes 4 m.average ++ natBytes 2 m.day
  | none => onesBytes 6

/-- The max validated half-hour and its stamp; all ones when absent. -/
def maxHalfHourBytes : Option MaxHalfHour → List Byte
  | some m => natBytes 4 m.value ++ bitBytes 4 m.stamp.word
  | none => onesBytes 8

/-- A year part: 44 bytes. -/
def YearPart.bytes (y : YearPart) : List Byte :=
  natBytes 2 y.hhValid ++ natBytes 2 y.hhInvalid ++ natBytes 2 y.hhExcluded ++ natBytes 2 y.hhAbnormal ++
  natBytes 2 y.hhGap ++ natBytes 2 y.hhOverShort ++ natBytes 2 y.hhOverPct ++ natBytes 2 y.hhInternal ++
  natBytes 2 y.daysValid ++ natBytes 2 y.daysInvalid ++ natBytes 2 y.daysExcluded ++ natBytes 2 y.daysAbnormal ++
  natBytes 2 y.daysOver ++ maxDayBytes y.maxDay ++ maxHalfHourBytes y.maxHalfHour ++
  natBytes 2 y.episodesEnded ++ natBytes 2 y.longestEpisode

/-- Offsets 39 to 56: mark set, day number, tallies and sum. -/
def DayPart.bytes (d : DayPart) (marks : MarkSet) : List Byte :=
  bitBytes 2 marks ++ natBytes 2 d.day ++
  natBytes 1 d.hhValid ++ natBytes 1 d.hhInvalid ++ natBytes 1 d.hhExcluded ++ natBytes 1 d.hhAbnormal ++
  natBytes 1 d.hhGap ++ natBytes 1 d.hhOverShort ++ natBytes 8 d.sum

/-- Offsets 38 to 100; a side that is absent reads zero after its state byte. -/
def currentSideBytes : Option CurrentSide → List Byte
  | some c => [1] ++ c.day.bytes c.marks ++ c.year.bytes
  | none => List.replicate 63 0

/-- The verdict: bits 0 to 3 set for a finding that is met. -/
def Verdict.byte (v : Verdict) : Byte :=
  BitVec.ofNat 8 (v.shortMet.toNat + 2 * v.pctMet.toNat + 4 * v.dayMet.toNat + 8 * v.availabilityMet.toNat)

/-- Offsets 101 to 150; a side that is EMPTY reads zero. -/
def closedSideBytes : Option ClosedSide → List Byte
  | some c => [1] ++ natBytes 2 c.yearNo ++ bitBytes 2 c.marks ++ [c.verdict.byte] ++ c.year.bytes
  | none => List.replicate 50 0

/-- The ACCOUNT snapshot's bytes. -/
def AccountSnapshot.bytes (p : AccountSnapshot) : List Byte :=
  let a := p.account
  natBytes 1 p.slot ++ natBytes 1 a.state.number ++ [stackSubstanceByte a.key.stack a.key.substance] ++
  natBytes 1 a.key.edition ++ natBytesOr 1 (a.source.map Fin.val) ++ natBytesOr 1 (p.linked.map Fin.val) ++
  bitBytes 2 a.cfgRev ++ natBytesOr 4 a.terms.short ++ natBytesOr 4 (a.terms.pct.map PctLimit.limit) ++
  natBytesOr 2 (a.terms.pct.map PctLimit.share) ++ natBytesOr 4 a.terms.day ++ natBytes 2 a.terms.ci ++
  natBytes 1 a.terms.maxInvalid ++ natBytes 2 a.terms.allowance ++ natBytes 1 p.episodes ++
  natBytes 2 (p.openNumber.getD 0) ++ halfHourBytesOr a.activatedAt ++ halfHourBytesOr a.frozenAt ++
  currentSideBytes a.current ++ closedSideBytes a.closed

/-! ## CHANNEL: 18 bytes -/

/-- The CHANNEL snapshot's bytes. -/
def ChannelSnapshot.bytes (p : ChannelSnapshot) : List Byte :=
  let ch := p.record
  natBytes 1 p.channel ++ natBytes 1 ch.state.number ++ [stackSubstanceByte ch.stack ch.substance] ++
  bitBytes 4 (num ch.low) ++ bitBytes 4 (num ch.high) ++ natBytes 1 ch.minMinutes ++
  natBytesOr 1 (ch.oxygen.map (fun t => t.source.1)) ++ natBytesOr 2 (ch.oxygen.map OxygenTerm.reference) ++
  natBytesOr 1 (ch.link.map Fin.val) ++ natBytes 1 p.namedBy ++ natBytesOr 1 (p.draft.map Fin.val)

/-! ## STACK: 39 bytes -/

/-- Offsets 13 to 38: the allowance record. -/
def StackAllowance.bytes (r : StackAllowance) : List Byte :=
  natBytes 1 r.episodeAllowance ++ natBytes 2 r.annualAllowance ++ natBytes 2 r.runHh ++ natBytes 2 r.yearAbnHh ++
  natBytes 2 r.episodesYear ++ natBytes 2 r.longestRun ++ [boolByte r.exceeded] ++ natBytes 1 r.demand.number ++
  halfHourBytesOr (r.last.map LastHalfHour.stamp) ++ natBytesOr 1 (r.last.map LastHalfHour.fired) ++
  natBytesOr 1 (r.last.map LastHalfHour.abnormal) ++ natBytes 2 r.previous.abnormalHh ++
  natBytes 2 r.previous.episodes ++ natBytes 2 r.previous.longestRun ++ [boolByte r.previous.exceeded]

/-- Offsets 1 to 12: the input record and the FEED line. -/
def StackInput.bytes (r : StackInput) (line : Bool) : List Byte :=
  [boolByte r.enable] ++ natBytes 1 r.debounce ++ [boolByte r.takenOn, boolByte line, boolByte r.timer.isSome] ++
  natBytes 1 r.state.number ++ wordBytesOr (r.declaration.map MinuteStamp.word) ++ [r.openMarks.byte] ++
  [match r.frozen with
    | some m => m.byte
    | none => 0xFF]

/-- The STACK snapshot's bytes. -/
def StackSnapshot.bytes (p : StackSnapshot) : List Byte :=
  natBytes 1 p.stack ++ p.input.bytes p.line ++ p.allowance.bytes

/-! ## EPISODE: 31 bytes -/

/-- Offsets 25 to 30: the subject's account or stack. -/
def SubjectShown.bytes : SubjectShown → List Byte
  | .account key state =>
    [stackSubstanceByte key.stack key.substance] ++ natBytes 1 key.edition ++ natBytes 1 state.number ++ [0, 0, 0]
  | .stack runHh demand => [0, 0, 0] ++ natBytes 2 runHh ++ natBytes 1 demand.number

/-- The EPISODE snapshot's bytes. -/
def EpisodeSnapshot.bytes (p : EpisodeSnapshot) : List Byte :=
  let e := p.episode
  natBytes 2 e.number ++ natBytes 1 e.subject.kind ++ natBytes 1 e.subject.index ++ [boolByte e.ended.isSome] ++
  bitBytes 4 e.start.word ++ halfHourBytesOr e.ended ++ natBytes 2 e.length ++ natBytesOr 4 e.peak ++
  [boolByte e.acknowledged] ++ natBytes 1 (e.cause.getD 0) ++ natBytes 1 p.position ++ natBytes 1 p.count ++
  natBytes 2 p.counter ++ p.shown.bytes

/-! ## The view -/

/-- A view's kind as read at 0x50 (09 R155). -/
def Snapshot.kind : Snapshot → Nat
  | .none => 0
  | .account _ => 1
  | .channel _ => 2
  | .stack _ => 3
  | .episode _ => 4

/-- The bytes of a view's snapshot. -/
def Snapshot.bytes : Snapshot → List Byte
  | .none => []
  | .account p => p.bytes
  | .channel p => p.bytes
  | .stack p => p.bytes
  | .episode p => p.bytes

/-- The snapshot byte at the pointer; zero at or beyond the snapshot's length. -/
def View.current (v : View) : Byte := v.snapshot.bytes.getD v.pointer 0

/-- The view after a read of its data: the pointer advances by one, stopping at 511. -/
def View.advance (v : View) : View := { v with pointer := min 511 (v.pointer + 1) }

/-- The view after a write to 0x52: the pointer takes the held low byte and the written high byte, unless above 511. -/
def View.setPointer (v : View) (high : Byte) : View :=
  let p := (high ++ v.held).toNat
  if p ≤ 511 then { v with pointer := p } else v

end Sys2Proof.Machine
end

