-- ==== Sys2Proof/Machine/Submit.lean ====
section
/-! DEFINITION. GO: the port's own checks and the hand-over of a request to its owner (10 R165 to R170). -/

namespace Sys2Proof.Machine

/-- The port's checks of a latched request, in order: the first refusal, or the request that passes (10 R168). -/
def portCheck (r : Request) : Except ReqOutcome RequestCode :=
  match RequestCode.ofByte r.code with
  | none => .error .unknown
  | some c =>
    if r.requestedLevel = 3 then .error .argument
    else if c.requiredLevel < r.level then .error .level
    else .ok c

/-- The state with a port's request area replaced. -/
def State.setArea (s : State) (p : Port) (area : RequestArea) : State :=
  s.setCommon p { s.common p with area := area }

/-- A GO while the area is IDLE or DONE: the block is latched, checked, and refused or handed to its owner, which takes it at
once when it is idle (10 R168, R170). -/
def submit (p : Port) (s : State) : State :=
  let c := s.common p
  let r := latch p c.block
  match portCheck r with
  | .error o => complete p r.code o [] (s.setArea p { c.area with latched := some r })
  | .ok code => takeUp code.owner (s.setArea p { c.area with state := .pending, busy := false, latched := some r })

/-- A write to GO; the value written is not read (10 R168, R169; not taken from the start of the orderly stop, R173). -/
def goWrite (p : Port) (s : State) : State :=
  if s.part ≠ .running then s
  else
    match (s.common p).area.state with
    | .pending => s.setArea p { (s.common p).area with busy := true }
    | .idle | .done => submit p s

end Sys2Proof.Machine
end

