-- ==== Sys2Proof/Machine/Window.lean ====
section
/-! DEFINITION. The window: what a read of a location returns and does, and what a write to it does (12 R181, R182, R185 to
R189). -/

namespace Sys2Proof.Machine

/-! ## Part status (12 R182) -/

/-- The calendar position shown: the null stamp in UNSET, S in HOLD (12 R182, 04 R67). -/
def shownPosition (c : Clock) : MinuteStamp :=
  match c.state with
  | .unset => .null
  | .hold => c.saved.getD c.position
  | .run | .stopped => c.position

/-- The submit status of a port: POWER from the start of the orderly stop (10 R167, R173). -/
def submitStatus (s : State) (p : Port) : Byte :=
  let area := (s.common p).area
  if s.part ≠ .running then 4
  else if area.busy then 3
  else
    match area.state with
    | .idle => 0
    | .pending => 1
    | .done => 2

/-- Port B's phase as a port reads it: port B always reads 0 (12 R182). -/
def phaseByte (s : State) : Port → Byte
  | .a => match s.portB.phase with
    | .selector => 0
    | .value => 1
  | .b => 0

/-- The six bytes of a position (12 R182). -/
def MinuteStamp.bytes (m : MinuteStamp) : List Byte := natBytes 2 m.year ++ natBytes 2 m.day ++ natBytes 2 m.minute

/-- The byte of the time source. -/
def TimeSource.number : TimeSource → Nat
  | .external => 0
  | .internal => 1

/-- A read of 0x00 to 0x0F; 0x04 is read through `captureRead` (12 R182). -/
def statusRead (p : Port) (loc : Nat) (s : State) : Byte :=
  match loc with
  | 0x00 => 0x4A
  | 0x01 => 0x01
  | 0x02 => BitVec.ofNat 8 s.clock.state.number
  | 0x03 => BitVec.ofNat 8 s.clock.source.number
  | 0x0A => BitVec.ofNat 8 s.queue.length
  | 0x0B => boolByte (gapWaiting s)
  | 0x0C => submitStatus s p
  | 0x0D => phaseByte s p
  | 0x0E => BitVec.ofNat 8 s.clock.graceSetting
  | 0x0F => BitVec.ofNat 8 (s.clock.calendarSet.toNat + 2 * s.clock.rangeEnd.toNat)
  | n => (s.common p).capture.bytes.getD (n - 4) 0

/-- The response block, 0x30 to 0x49 (12 R185). -/
def Response.bytes (r : Response) : List Byte :=
  [match r.outcome with
    | some o => o.number
    | none => 0, r.code] ++ r.values.toList.flatMap (bitBytes 4)

/-- A read of 0x50 to 0x52; 0x53 is read through `viewRead` (12 R186; assumption 9). -/
def viewStatusRead (loc : Nat) (v : View) : Byte :=
  if loc = 0x50 then BitVec.ofNat 8 v.snapshot.kind
  else if loc = 0x51 then BitVec.ofNat 8 v.pointer
  else BitVec.ofNat 8 (v.pointer / 256)

/-- A read of 0x70 to 0x7E without an effect (12 R188). Bits 4 to 6 of 0x78 are open (assumption 6). -/
def eventRead (loc : Nat) (u : EventUnit) : Byte :=
  match loc with
  | 0x70 => u.setByte (·.enable) 0
  | 0x71 => u.setByte (·.enable) 1
  | 0x72 => u.setByte (·.masked) 0
  | 0x73 => u.setByte (·.masked) 1
  | 0x74 => u.setByte (·.pending) 0
  | 0x75 => u.setByte (·.pending) 1
  | 0x76 => u.setByte (·.inService) 0
  | 0x77 => u.setByte (·.inService) 1
  | 0x78 => BitVec.ofBool u.tracking ++ Config.trackingReadback u.control ++ u.vectorBase
  | 0x7E => BitVec.ofBool u.lastAck.isSome ++ 0#2 ++ BitVec.ofNat 5 u.detailPointer.1
  | _ => 0

/-- A read without an effect, of a location that belongs to port A alone (12 R181). -/
def portAOnlyRead (p : Port) (loc : Nat) (s : State) : Byte :=
  match p with
  | .a => if loc ≤ 0x6F then postingRead loc s else eventRead loc s.events
  | .b => 0

/-- What a read of a location without an effect returns (12 R181). -/
def plainRead (p : Port) (loc : Nat) (s : State) : Byte :=
  let c := s.common p
  if loc ≤ 0x0F then statusRead p loc s
  else if loc ≤ 0x2E then blockByte c.block (loc - 0x10)
  else if loc ≤ 0x2F then 0
  else if loc ≤ 0x49 then c.area.response.bytes.getD (loc - 0x30) 0
  else if loc ≤ 0x4F then 0
  else if loc ≤ 0x53 then viewStatusRead loc c.view
  else if loc ≤ 0x5F then 0
  else portAOnlyRead p loc s

/-! ## Reads with an effect -/

/-- A read of 0x04: the whole position shown goes into the port's capture (12 R182). -/
def captureRead (p : Port) (s : State) : Byte × State :=
  let shown := shownPosition s.clock
  (shown.bytes.getD 0 0, s.setCommon p { s.common p with capture := shown })

/-- A read of 0x53: the snapshot byte at the pointer, which then advances (12 R186). -/
def viewRead (p : Port) (s : State) : Byte × State :=
  let c := s.common p
  (c.view.current, s.setCommon p { c with view := c.view.advance })

/-- A read of 0x79 by port A: an acknowledgement (11 R178, 12 R188). -/
def acknowledgeRead (s : State) : Byte × State := (s.events.acknowledge.1, { s with events := s.events.acknowledge.2 })

/-- A read of 0x7F by port A (12 R188). -/
def detailRead (s : State) : Byte × State := (s.events.readDetail.1, { s with events := s.events.readDetail.2 })

/-- A read of a location by a port: the byte returned and the state afterwards. A stopped part answers 0x00 to 0x0F only
(12 R189). -/
def windowRead (p : Port) (loc : Loc) (s : State) : Byte × State :=
  let n := loc.toNat
  if s.part = .stopped ∧ 0x0F < n then (0, s)
  else if n = 0x04 then captureRead p s
  else if n = 0x53 then viewRead p s
  else if n = 0x79 ∧ p = .a then acknowledgeRead s
  else if n = 0x7F ∧ p = .a then detailRead s
  else (plainRead p n s, s)

/-! ## Writes -/

/-- A byte written to the request block (12 R185). -/
def blockWrite (p : Port) (i : Nat) (v : Byte) (s : State) : State :=
  let c := s.common p
  s.setCommon p { c with block := if h : i < 31 then c.block.set i v h else c.block }

/-- A write to 0x51, which is held (12 R186). -/
def holdPointer (p : Port) (v : Byte) (s : State) : State :=
  let c := s.common p
  s.setCommon p { c with view := { c.view with held := v } }

/-- A write to 0x52 (12 R186). -/
def pointerWrite (p : Port) (v : Byte) (s : State) : State :=
  let c := s.common p
  s.setCommon p { c with view := c.view.setPointer v }

/-- A write of port A to the posting area, 0x60 to 0x6F (12 R187). -/
def postingWrite (loc : Nat) (v : Byte) (s : State) : State :=
  if loc = 0x60 then { s with portA := { s.portA with channelSelect := v } }
  else if loc = 0x61 then { s with portA := { s.portA with slotSelect := v } }
  else if loc ≤ 0x6B then recordWrite loc v s
  else if loc = 0x6C then handOver s
  else s

/-- A write of port A to the event unit, 0x70 to 0x7F (12 R188). -/
def eventWrite (loc : Nat) (v : Byte) (u : EventUnit) : EventUnit :=
  match loc with
  | 0x70 => u.writeEnable 0 v
  | 0x71 => u.writeEnable 1 v
  | 0x72 => u.writeMask 0 v
  | 0x73 => u.writeMask 1 v
  | 0x78 => u.writeControl v
  | 0x7A => { u with clearHeld := v }
  | 0x7B => u.clearPending v
  | 0x7C => { u with serviceHeld := v }
  | 0x7D => u.endService v
  | 0x7E => u.writeDetailPointer v
  | _ => u

/-- A write of a byte to a location by a port. A stopped part ignores every write (12 R181, R189). -/
def windowWrite (p : Port) (loc : Loc) (v : Byte) (s : State) : State :=
  let n := loc.toNat
  if s.part = .stopped then s
  else if n < 0x10 then s
  else if n ≤ 0x2E then blockWrite p (n - 0x10) v s
  else if n = 0x2F then goWrite p s
  else if n = 0x51 then holdPointer p v s
  else if n = 0x52 then pointerWrite p v s
  else if n < 0x60 ∨ p = .b then s
  else if n ≤ 0x6F then postingWrite n v s
  else { s with events := eventWrite n v s.events }

end Sys2Proof.Machine
end

