-- ==== Sys2Proof/Machine/PortA.lean ====
section
/-! DEFINITION. Port A: frames and their data bytes (12 R183, R189). -/

namespace Sys2Proof.Machine

/-- FRAME_START: CSN goes low; the next byte is a header, during which MISO carries 0 (12 R183, R189). With CSN low
already there is no such event (assumption 1). -/
def execFrameStart (s : State) : Answer :=
  if s.portA.csnLow then .next s
  else .next { s with portA := { s.portA with csnLow := true, frame := some .header, miso := some 0 } }

/-- FRAME_HEADER: direction and starting location (12 R183). Without a frame that waits for its header there is no such
event (assumption 1). -/
def execFrameHeader (header : Byte) (s : State) : Answer :=
  if s.portA.frame = some .header then
    .next { s with portA := { s.portA with frame := some (.data header.msb (header.setWidth 7)) } }
  else .next s

/-- FRAME_END: CSN goes high, the frame ends and MISO is not driven (12 R183). -/
def execFrameEnd (s : State) : Answer :=
  .next { s with portA := { s.portA with csnLow := false, frame := none, miso := none } }

/-- The byte on MISO, none while it is not driven: the byte last read in a read frame; in a write frame's data bytes it is
open (12 R183; assumption 11). -/
def misoPin (s : State) : Option Byte :=
  match s.portA.frame with
  | some (.data false loc) => some (Config.writeFrameMiso loc)
  | some (.data true _) | some .header | none => s.portA.miso

/-- The frame's location after a data byte: the next one, except at 0x53 and 0x7F (12 R183). -/
def nextLoc (loc : Loc) : Loc := if loc.toNat = 0x53 ∨ loc.toNat = 0x7F then loc else loc + 1

/-- The state with the frame moved on after a data byte at a location. -/
def moveFrame (read : Bool) (loc : Loc) (s : State) : State :=
  { s with portA := { s.portA with frame := some (.data read (nextLoc loc)) } }

/-- A data byte of a write frame at a location: the write, and the frame moves on. Without a write frame at the location
the event does not arise (assumption 1). -/
def frameWrite (loc : Loc) (v : Byte) (s : State) : Answer :=
  if s.portA.frame = some (.data false loc) then .next (moveFrame false loc (windowWrite .a loc v s)) else .next s

/-- The first location from a frame's location on whose read has an effect (12 R183). -/
def nextEffectLoc (loc : Loc) : Loc :=
  if loc.toNat ≤ 0x04 then 0x04 else if loc.toNat ≤ 0x53 then 0x53 else if loc.toNat ≤ 0x79 then 0x79 else 0x7F

/-- Whether a read frame is open that reads a location next among those whose read has an effect. -/
def frameReaches (s : State) (loc : Loc) : Bool :=
  match s.portA.frame with
  | some (.data true at_) => nextEffectLoc at_ == loc
  | some (.data false _) | some .header | none => false

/-- A data byte of a read frame at a location whose read has an effect: the byte goes onto MISO and the frame moves on.
The data bytes from the frame's location up to it, whose reads have no effect, are shifted out in the same step
(assumption 10). Without such a read frame the event does not arise (assumption 1). -/
def frameRead (loc : Loc) (s : State) : Answer :=
  if frameReaches s loc then
    let r := windowRead .a loc s
    let t := moveFrame true loc r.2
    .next { t with portA := { t.portA with miso := some r.1 } }
  else .next s

/-- The next data byte of a read frame at a location whose read has no effect: the byte read there goes onto MISO and the
frame moves on (12 R183). No row of the table is such a byte; an idle step takes it (assumption 10). -/
def shiftPlainByte (s : State) : Option State :=
  match s.portA.frame with
  | some (.data true loc) =>
    if nextEffectLoc loc = loc then none
    else
      let t := moveFrame true loc s
      some { t with portA := { t.portA with miso := some (windowRead .a loc s).1 } }
  | some (.data false _) | some .header | none => none

end Sys2Proof.Machine
end

