-- ==== Sys2Proof/Machine/PortB.lean ====
section
/-! DEFINITION. Port B: received bytes, answers, framing errors and breaks (12 R184, R189). -/

namespace Sys2Proof.Machine

/-- What TXD carries: a level, true for high, or an answer being sent. -/
inductive TxdLine where
  | level (high : Bool)
  | sending (answer : Byte)
deriving DecidableEq, Repr

/-- The TXD pin: the answer being sent, and high while there is none (12 R184, R190). -/
def txdPin (s : State) : TxdLine :=
  match s.portB.sending with
  | some v => .sending v
  | none => .level true

/-- A value joins the tail of the answer queue; with nothing on TXD it is sent at once (12 R184). -/
def enqueueAnswer (v : Byte) (s : State) : State :=
  match s.portB.sending with
  | none => { s with portB := { s.portB with sending := some v } }
  | some _ => { s with portB := { s.portB with answers := s.portB.answers ++ [v] } }

/-- The state with port B's window pointer set and its phase. -/
def pointAt (phase : Phase) (loc : Loc) (s : State) : State := { s with portB := { s.portB with phase := phase, pointer := loc } }

/-- A read selector in the SELECTOR phase: the location is read at once, with its effects (12 R184). -/
def readAt (loc : Loc) (s : State) : State :=
  let r := windowRead .b loc (pointAt .selector loc s)
  enqueueAnswer r.1 r.2

/-- A byte in the VALUE phase, written to the location of the window pointer (12 R184). -/
def writeValue (v : Byte) (s : State) : State := windowWrite .b s.portB.pointer v (pointAt .selector s.portB.pointer s)

/-- A byte received at its stop bit. The phase decides what it is, whichever row names it (12 R184; assumption 12). While
RXD is held low after a break no byte is received. -/
def receiveByte (v : Byte) (s : State) : State :=
  if s.portB.lineBreak then s
  else
    match s.portB.phase with
    | .value => writeValue v s
    | .selector => if v.msb then readAt (v.setWidth 7) s else pointAt .value (v.setWidth 7) s

/-- READ_SELECTOR (12 R184). -/
def execReadSelector (v : Byte) (s : State) : Answer := .next (receiveByte v s)

/-- WRITE_SELECTOR (12 R184). -/
def execWriteSelector (v : Byte) (s : State) : Answer := .next (receiveByte v s)

/-- VALUE_BYTE (12 R184). -/
def execValueByte (v : Byte) (s : State) : Answer := .next (receiveByte v s)

/-- FRAMING_ERROR: the byte is discarded and the phase becomes SELECTOR (12 R184). -/
def execFramingError (s : State) : Answer := .next { s with portB := { s.portB with phase := .selector } }

/-- BREAK (12 R184): phase SELECTOR, window pointer 0, view pointer 0; RXD is low until BREAK_END. -/
def execRxdBreak (s : State) : Answer :=
  .next { s with portB :=
    { s.portB with
      common := { s.portB.common with view := { s.portB.common.view with pointer := 0 } }
      phase := .selector
      pointer := 0
      lineBreak := true } }

/-- BREAK_END: RXD returns high and reception restarts (12 R184). -/
def execBreakEnd (s : State) : Answer := .next { s with portB := { s.portB with lineBreak := false } }

/-- ANSWER_SENT: the answer on TXD is complete and the next one follows (12 R184). With none on TXD there is no such event
(assumption 1). -/
def execAnswerSent (s : State) : Answer :=
  match s.portB.sending with
  | none => .next s
  | some _ => .next { s with portB := { s.portB with sending := s.portB.answers.head?, answers := s.portB.answers.tail } }

/-- A write by port B to a location: the VALUE byte that follows its write selector. In another phase or at another
location the event does not arise (assumption 1). -/
def valueWrite (loc : Loc) (v : Byte) (s : State) : Answer :=
  if !s.portB.lineBreak ∧ s.portB.phase = .value ∧ s.portB.pointer = loc then .next (receiveByte v s) else .next s

/-- A read by port B of a location: its read selector. In the VALUE phase the event does not arise (assumption 1). -/
def selectorRead (loc : Loc) (s : State) : Answer :=
  if !s.portB.lineBreak ∧ s.portB.phase = .selector then .next (receiveByte (1#1 ++ loc) s) else .next s

end Sys2Proof.Machine
end

