-- ==== Sys2Proof/WellFormed.lean ====
section
/-! DEFINITION. Which commands are well formed: a row that covers certain locations or byte values carries one of them.
The ranges of stacks, ports and locations are in the operand types. -/

namespace Sys2Proof

/-- The locations of port A that have a write row of their own (12 R185 to R188). -/
def Loc.ownRowOnA (loc : Loc) : Bool :=
  let n := loc.toNat
  n == 0x2F || n == 0x52 || (0x62 ≤ n && n ≤ 0x6C) || (0x70 ≤ n && n ≤ 0x73) || n == 0x78 || n == 0x7B || n == 0x7D ||
    n == 0x7E

/-- The locations of port B that have a write row of their own: GO and the view pointer (12 R181: port B has no path to
the posting area and the event unit). -/
def Loc.ownRowOnB (loc : Loc) : Bool := loc.toNat == 0x2F || loc.toNat == 0x52

/-- A command is well formed when its location belongs to its row and a selector byte has the bit its row names. -/
def Instr.wellFormed : Instr → Bool
  | .registerWrite .a loc _ => !loc.ownRowOnA
  | .registerWrite .b loc _ => !loc.ownRowOnB
  | .recordWrite loc _ => 0x62 ≤ loc.toNat && loc.toNat ≤ 0x6B
  | .enableWrite loc _ => loc.toNat == 0x70 || loc.toNat == 0x71
  | .maskWrite loc _ => loc.toNat == 0x72 || loc.toNat == 0x73
  | .readSelector byte => byte.msb
  | .writeSelector byte => !byte.msb
  | .minpPulse | .supervisionExpiry | .graceExpiry | .feedLineChange _ _ | .debounceExpiry _ | .supplyLow | .rstnLow
  | .partStop | .supplyRestored | .rstnHigh | .restart | .powerOn | .resultAbsorption | .stackEntryAbsorption
  | .dayEndAbsorption | .yearEndAbsorption | .gapWalk | .go _ _ | .createAccount | .setLimits | .linkSource | .activate
  | .amend | .reassign | .retire | .deleteDraft | .certify | .mark | .configureChannel | .startChannel | .stopChannel
  | .releaseChannel | .readChannel | .setAllowance | .readStack | .setFeedInput | .declareAbnormal | .endAbnormal
  | .ackEpisode | .readEpisode | .find | .readAccount | .setCalendar | .setGrace | .resume | .frameHeader _ | .frameEnd
  | .calendarCapture _ | .viewPointerWrite _ _ | .viewDataRead _ | .handOver _ | .trackingAndVectorBaseWrite _
  | .vectorRead | .pendingClear _ | .endOfService _ | .detailPointerWrite _ | .detailDataRead | .valueByte _
  | .framingError | .rxdBreak | .answerSent | .frameStart | .breakEnd => true

end Sys2Proof
end

