-- ==== Sys2Proof/Machine/Accesses.lean ====
section
/-! DEFINITION. The rows that are one read or one write of a location by a port (10 R168, 11, 12 R181 to R188). -/

namespace Sys2Proof.Machine

/-- A write of a location by a port. -/
def portWrite (p : Port) (loc : Loc) (v : Byte) (s : State) : Answer :=
  match p with
  | .a => frameWrite loc v s
  | .b => valueWrite loc v s

/-- A read, with an effect, of a location by a port. -/
def portRead (p : Port) (loc : Loc) (s : State) : Answer :=
  match p with
  | .a => frameRead loc s
  | .b => selectorRead loc s

/-- Whether a location has a write row of its own on a port. -/
def ownRow (p : Port) (loc : Loc) : Bool :=
  match p with
  | .a => loc.ownRowOnA
  | .b => loc.ownRowOnB

/-- GO (10 R168). -/
def execGo (p : Port) (v : Byte) (s : State) : Answer := portWrite p 0x2F v s

/-- REGISTER_WRITE (12 R181): a location with no row of its own on the port; another location is another row's. -/
def execRegisterWrite (p : Port) (loc : Loc) (v : Byte) (s : State) : Answer :=
  if ownRow p loc then .next s else portWrite p loc v s

/-- CALENDAR_CAPTURE (12 R182). -/
def execCalendarCapture (p : Port) (s : State) : Answer := portRead p 0x04 s

/-- VIEW_POINTER_WRITE (12 R186). -/
def execViewPointerWrite (p : Port) (v : Byte) (s : State) : Answer := portWrite p 0x52 v s

/-- VIEW_DATA_READ (12 R186). -/
def execViewDataRead (p : Port) (s : State) : Answer := portRead p 0x53 s

/-- RECORD_WRITE (02 R41, 12 R187): 0x62 to 0x6B. It finds the slot as it stands: with a SET_CALENDAR in hand at the Period
Clock and not yet performed, a LOADED slot is LOADED still and the write is ignored, although 02 R45 empties it when the
request is taken (DESIGN CHOICE, assumption 25). -/
def execRecordWrite (loc : Loc) (v : Byte) (s : State) : Answer :=
  if 0x62 ≤ loc.toNat ∧ loc.toNat ≤ 0x6B then portWrite .a loc v s else .next s

/-- HAND_OVER (02 R42, 12 R187). The collector takes it after the requests that were taken before it (`completeAll`). -/
def execHandOver (v : Byte) (s : State) : Answer := portWrite .a 0x6C v (completeAll s)

/-- ENABLE_WRITE (11 R176, 12 R188): 0x70 or 0x71. -/
def execEnableWrite (loc : Loc) (v : Byte) (s : State) : Answer :=
  if loc.toNat = 0x70 ∨ loc.toNat = 0x71 then portWrite .a loc v s else .next s

/-- MASK_WRITE (11 R177, 12 R188): 0x72 or 0x73. -/
def execMaskWrite (loc : Loc) (v : Byte) (s : State) : Answer :=
  if loc.toNat = 0x72 ∨ loc.toNat = 0x73 then portWrite .a loc v s else .next s

/-- TRACKING_AND_VECTOR_BASE_WRITE (11 R175, 12 R188). -/
def execTrackingAndVectorBaseWrite (v : Byte) (s : State) : Answer := portWrite .a 0x78 v s

/-- VECTOR_READ (11 R178). -/
def execVectorRead (s : State) : Answer := portRead .a 0x79 s

/-- PENDING_CLEAR (11 R179, 12 R188). -/
def execPendingClear (v : Byte) (s : State) : Answer := portWrite .a 0x7B v s

/-- END_OF_SERVICE (11 R179, 12 R188). -/
def execEndOfService (v : Byte) (s : State) : Answer := portWrite .a 0x7D v s

/-- DETAIL_POINTER_WRITE (11 R180, 12 R188). -/
def execDetailPointerWrite (v : Byte) (s : State) : Answer := portWrite .a 0x7E v s

/-- DETAIL_DATA_READ (12 R188). -/
def execDetailDataRead (s : State) : Answer := portRead .a 0x7F s

end Sys2Proof.Machine
end

