-- ==== Sys2Proof/Machine/Events.lean ====
section
/-! DEFINITION. The events of the Period Clock and of the Stack Monitor: pulses, expiries and line changes (03 R50, R51, 04
R72 to R74). Each falls after the requests that were taken before it (`completeAll`). -/

namespace Sys2Proof.Machine

/-- A minute pulse; ignored outside RUN (04 R73, R69). -/
def takePulse (s : State) : State :=
  if s.clock.state ≠ .run then s
  else
    match s.clock.source, earlyPulse s with
    | .external, true => s
    | .external, false => boundary false s
    | .internal, true => returningPulse s
    | .internal, false => boundary false (setSource .external s)

/-- MINP_PULSE (04 R73). -/
def execMinpPulse (s : State) : Answer := .next (takePulse (completeAll s))

/-- An expiry of the supervision timer (04 R74). Time has then reached the timer's expiry (assumption 2). With the timer idle
there is no expiry (assumption 1). -/
def expireSupervision (s : State) : State :=
  match s.clock.state, s.clock.supervision with
  | .run, some e => boundary true (loseClock (advanceTo e s))
  | _, _ => s

/-- SUPERVISION_EXPIRY (04 R74). -/
def execSupervisionExpiry (s : State) : Answer := .next (expireSupervision (completeAll s))

/-- An expiry of the grace timer (04 R72). Time has then reached the timer's expiry (assumption 2). With the timer idle there
is no expiry (assumption 1). -/
def expireGrace (s : State) : State :=
  match s.clock.state, s.clock.graceTimer with
  | .run, some e => collectGrace (advanceTo e s)
  | _, _ => s

/-- GRACE_EXPIRY (04 R72). -/
def execGraceExpiry (s : State) : Answer := .next (expireGrace (completeAll s))

/-- A FEED line takes a level (03 R50): on an enabled stack the timer starts when the level is opposite to the taken one and
is cancelled when it returns to it. A line already at the level has not changed, and after the part has stopped only the
line moves (assumption 23). -/
def changeLine (i : StackNo) (level : Bool) (s : State) : State :=
  if s.feedLine i = level then s
  else
    let t := { s with feedLines := put s.feedLines i level }
    let r := s.input i
    if r.enable ∧ s.part ≠ .stopped then t.setInput i { r with timer := r.lineTimer s.now level } else t

/-- FEED_LINE_CHANGE (03 R50). -/
def execFeedLineChange (i : StackNo) (level : Bool) (s : State) : Answer := .next (changeLine i level (completeAll s))

/-- An expiry of a stack's debounce timer (03 R51). Time has then reached the timer's expiry (assumption 2). A stack with no
running timer has no expiry (assumption 1). -/
def expireDebounce (i : StackNo) (s : State) : State :=
  let r := s.input i
  match r.timer with
  | none => s
  | some e =>
    if s.part = .stopped then s else raiseEvent .feed i ({ s with now := max s.now e }.setInput i r.takeLevel)

/-- DEBOUNCE_EXPIRY (03 R51). -/
def execDebounceExpiry (i : StackNo) (s : State) : Answer := .next (expireDebounce i (completeAll s))

end Sys2Proof.Machine
end

