-- ==== Sys2Proof/Machine/Power.lean ====
section
/-! DEFINITION. The orderly stop, the restart and power-on (04 R81 to R83, 06 R112, 12 R189). -/

namespace Sys2Proof.Machine

/-- The clock's part in the start of the stop: S takes the calendar position in RUN and in HOLD, the clock enters STOPPED
and its timers go idle (04 R81). -/
def stopClock (s : State) : State :=
  { s with clock :=
      { s.clock with
        state := .stopped
        saved := if s.clock.state = .run ∨ s.clock.state = .hold then some s.clock.position else s.clock.saved
        graceTimer := none
        supervision := none } }

/-- The steps of the stop that follow: a minute in grace is collected in RUN, the clock stops, and the engine takes the
queue head (04 R81, 06 R112). -/
def stopBlocks (s : State) : State :=
  takeUp .engine (stopClock (if s.clock.state = .run then collectGrace s else s))

/-- The start of the orderly stop (04 R81). A cause that arrives during a stop joins it (R82). What the owners have in hand
is completed first, and no owner takes another request (07 R118, 10 R173); that this is one step with the rest of the stop's
start is the model's (DESIGN CHOICE, assumption 25). -/
def beginStop (s : State) : State :=
  if s.part = .running then stopBlocks (completeAll { s with part := .stopping }) else s

/-- SUPPLY_LOW (04 R81, R82). -/
def execSupplyLow (s : State) : Answer := .next { beginStop s with supplyGood := false }

/-- RSTN_LOW (04 R81, R82). -/
def execRstnLow (s : State) : Answer := .next { beginStop s with rstnHigh := false }

/-- PART_STOP: when the engine has emptied the queue, the part stops (04 R81, 06 R112, 07 R118). -/
def execPartStop (s : State) : Answer :=
  if s.part = .stopping ∧ s.queue = [] then .next { s with part := .stopped } else .next s

/-- SUPPLY_RESTORED (04 R82). -/
def execSupplyRestored (s : State) : Answer := .next { s with supplyGood := true }

/-- RSTN_HIGH (04 R82). -/
def execRstnHigh (s : State) : Answer := .next { s with rstnHigh := true }

/-- The clock after a restart: volatile fields at their reset values, HOLD when the calendar-set indication is set and
UNSET otherwise (04 R69, R70, R83). -/
def Clock.restarted (c : Clock) : Clock :=
  { Clock.reset with
    state := if c.calendarSet then .hold else .unset
    position := c.position
    calendarSet := c.calendarSet
    graceSetting := c.graceSetting
    saved := c.saved
    rangeEnd := c.rangeEnd }

/-- Every volatile piece of state takes its reset value; the non-volatile state and the levels of the input pins stay
(04 R83, 07 R114, 12 R189). -/
def volatileReset (s : State) : State :=
  { s with
    part := .running
    clock := s.clock.restarted
    inputs := tabulate (fun i => (s.input i).restarted s.now (s.feedLine i))
    slots := Vector.replicate 48 .reset
    accumulators := Vector.replicate 48 .empty
    counts := Vector.replicate 4 .zero
    queue := []
    inFlight := none
    lastClaim := .none
    monitorHand := none
    clockHand := none
    handOrder := []
    portA := { PortA.reset with csnLow := s.portA.csnLow }
    portB := { PortB.reset with lineBreak := s.portB.lineBreak }
    events := .reset }

/-- RESTART: follows the stop when the supply is at its working level and RSTN is high (04 R83). -/
def execRestart (s : State) : Answer :=
  if s.part = .stopped ∧ s.supplyGood ∧ s.rstnHigh then .next (volatileReset s) else .next s

/-- POWER_ON: the supply is at its working level after an unpowered period, with the effect of the restart (04 R83). While
RSTN is still low the part waits stopped for the restart (assumption 13). -/
def execPowerOn (s : State) : Answer :=
  let t := { volatileReset s with supplyGood := true }
  if s.rstnHigh then .next t
  else .next { t with part := .stopped, clock := { t.clock with state := .stopped } }

end Sys2Proof.Machine
end

