-- ==== Sys2Proof/Machine/Dispatch.lean ====
section
/-! DEFINITION. One arm per command: a direct call of its meaning. -/

namespace Sys2Proof.Machine

def exec (i : Instr) (s : State) : Host.Outcome State Fault Refusal :=
  match i with
  | .minpPulse => Sys2Proof.Machine.execMinpPulse s
  | .supervisionExpiry => Sys2Proof.Machine.execSupervisionExpiry s
  | .graceExpiry => Sys2Proof.Machine.execGraceExpiry s
  | .feedLineChange stack level => Sys2Proof.Machine.execFeedLineChange stack level s
  | .debounceExpiry stack => Sys2Proof.Machine.execDebounceExpiry stack s
  | .supplyLow => Sys2Proof.Machine.execSupplyLow s
  | .rstnLow => Sys2Proof.Machine.execRstnLow s
  | .partStop => Sys2Proof.Machine.execPartStop s
  | .supplyRestored => Sys2Proof.Machine.execSupplyRestored s
  | .rstnHigh => Sys2Proof.Machine.execRstnHigh s
  | .restart => Sys2Proof.Machine.execRestart s
  | .powerOn => Sys2Proof.Machine.execPowerOn s
  | .resultAbsorption => Sys2Proof.Machine.execResultAbsorption s
  | .stackEntryAbsorption => Sys2Proof.Machine.execStackEntryAbsorption s
  | .dayEndAbsorption => Sys2Proof.Machine.execDayEndAbsorption s
  | .yearEndAbsorption => Sys2Proof.Machine.execYearEndAbsorption s
  | .gapWalk => Sys2Proof.Machine.execGapWalk s
  | .go port value => Sys2Proof.Machine.execGo port value s
  | .createAccount => Sys2Proof.Machine.execCreateAccount s
  | .setLimits => Sys2Proof.Machine.execSetLimits s
  | .linkSource => Sys2Proof.Machine.execLinkSource s
  | .activate => Sys2Proof.Machine.execActivate s
  | .amend => Sys2Proof.Machine.execAmend s
  | .reassign => Sys2Proof.Machine.execReassign s
  | .retire => Sys2Proof.Machine.execRetire s
  | .deleteDraft => Sys2Proof.Machine.execDeleteDraft s
  | .certify => Sys2Proof.Machine.execCertify s
  | .mark => Sys2Proof.Machine.execMark s
  | .configureChannel => Sys2Proof.Machine.execConfigureChannel s
  | .startChannel => Sys2Proof.Machine.execStartChannel s
  | .stopChannel => Sys2Proof.Machine.execStopChannel s
  | .releaseChannel => Sys2Proof.Machine.execReleaseChannel s
  | .readChannel => Sys2Proof.Machine.execReadChannel s
  | .setAllowance => Sys2Proof.Machine.execSetAllowance s
  | .readStack => Sys2Proof.Machine.execReadStack s
  | .setFeedInput => Sys2Proof.Machine.execSetFeedInput s
  | .declareAbnormal => Sys2Proof.Machine.execDeclareAbnormal s
  | .endAbnormal => Sys2Proof.Machine.execEndAbnormal s
  | .ackEpisode => Sys2Proof.Machine.execAckEpisode s
  | .readEpisode => Sys2Proof.Machine.execReadEpisode s
  | .find => Sys2Proof.Machine.execFind s
  | .readAccount => Sys2Proof.Machine.execReadAccount s
  | .setCalendar => Sys2Proof.Machine.execSetCalendar s
  | .setGrace => Sys2Proof.Machine.execSetGrace s
  | .resume => Sys2Proof.Machine.execResume s
  | .frameHeader header => Sys2Proof.Machine.execFrameHeader header s
  | .frameEnd => Sys2Proof.Machine.execFrameEnd s
  | .registerWrite port loc value => Sys2Proof.Machine.execRegisterWrite port loc value s
  | .calendarCapture port => Sys2Proof.Machine.execCalendarCapture port s
  | .viewPointerWrite port value => Sys2Proof.Machine.execViewPointerWrite port value s
  | .viewDataRead port => Sys2Proof.Machine.execViewDataRead port s
  | .recordWrite loc value => Sys2Proof.Machine.execRecordWrite loc value s
  | .handOver value => Sys2Proof.Machine.execHandOver value s
  | .enableWrite loc value => Sys2Proof.Machine.execEnableWrite loc value s
  | .maskWrite loc value => Sys2Proof.Machine.execMaskWrite loc value s
  | .trackingAndVectorBaseWrite value => Sys2Proof.Machine.execTrackingAndVectorBaseWrite value s
  | .vectorRead => Sys2Proof.Machine.execVectorRead s
  | .pendingClear value => Sys2Proof.Machine.execPendingClear value s
  | .endOfService value => Sys2Proof.Machine.execEndOfService value s
  | .detailPointerWrite value => Sys2Proof.Machine.execDetailPointerWrite value s
  | .detailDataRead => Sys2Proof.Machine.execDetailDataRead s
  | .readSelector received => Sys2Proof.Machine.execReadSelector received s
  | .writeSelector received => Sys2Proof.Machine.execWriteSelector received s
  | .valueByte received => Sys2Proof.Machine.execValueByte received s
  | .framingError => Sys2Proof.Machine.execFramingError s
  | .rxdBreak => Sys2Proof.Machine.execRxdBreak s
  | .answerSent => Sys2Proof.Machine.execAnswerSent s
  | .frameStart => Sys2Proof.Machine.execFrameStart s
  | .breakEnd => Sys2Proof.Machine.execBreakEnd s

end Sys2Proof.Machine
end

