-- ==== Sys2Proof/Machine/Step.lean ====
section
/-! DEFINITION. One step: the command at the front of the queue, or the passing of time. -/

namespace Sys2Proof.Machine

/-- Whether a timer runs and has expired by the second `now`. -/
def due (now : Nat) (timer : Option Nat) : Bool :=
  match timer with
  | some e => decide (e ≤ now)
  | none => false

/-- Whether the debounce timer of a stack is due; a stopped part has no expiries (assumption 23). -/
def debounceDue (s : State) (i : StackNo) : Bool := s.part != .stopped && due s.now (s.input i).timer

/-- The command of the timer that is due, grace before debounce before supervision (assumption 3). -/
def dueCommand (s : State) : Option Instr :=
  if s.clock.state = .run ∧ due s.now s.clock.graceTimer then some .graceExpiry
  else
    match lowest (debounceDue s) with
    | some i => some (.debounceExpiry i)
    | none => if s.clock.state = .run ∧ due s.now s.clock.supervision then some .supervisionExpiry else none

/-- An empty queue: a timer that is due expires; otherwise the next byte without an effect of an open read frame is shifted
out; otherwise one second passes (assumptions 2, 3, 10). -/
def idle (s : State) : Host.Outcome State Fault Refusal :=
  match dueCommand s with
  | some c => exec c s
  | none =>
    match shiftPlainByte s with
    | some t => .next t
    | none => .next { s with now := s.now + 1 }

/-- One step: the command at the front of the queue is taken. -/
def step (s : State) : Host.Outcome State Fault Refusal :=
  match s.pending with
  | c :: rest => exec c { s with pending := rest }
  | [] => idle s

/-- The state with the command that a word spells put at the front of its queue; unchanged where it spells none. -/
def State.withFetchWord (s : State) (nbits w : Nat) : State :=
  match decodeTableWord nbits w with
  | some c => { s with pending := c :: s.pending }
  | none => s

end Sys2Proof.Machine
end

