-- ==== Sys2Proof/Safety.lean ====
section
/-! DEFINITION. What stays true of the part at every step: the laws the manual says its tables, queue, clock and slots
obey. -/

namespace Sys2Proof.Machine

/-- The parts of an account that its state makes present or absent (01 R2), a FREE slot as in R4, and no account of
oxygen (R3). -/
def Account.shaped (a : Account) : Prop :=
  match a.state with
  | .free => a = .free
  | .draft => a.key.substance.1 ≤ 14 ∧ a.activatedAt = none ∧ a.frozenAt = none ∧ a.current = none ∧ a.closed = none
  | .active =>
    a.key.substance.1 ≤ 14 ∧ a.source.isSome ∧ a.activatedAt.isSome ∧ a.frozenAt = none ∧ a.current.isSome
  | .frozen => a.key.substance.1 ≤ 14 ∧ a.source.isSome ∧ a.activatedAt.isSome ∧ a.frozenAt.isSome ∧ a.current.isSome
  | .lapsed =>
    a.key.substance.1 ≤ 14 ∧ a.source.isSome ∧ a.activatedAt.isSome ∧ a.frozenAt.isSome ∧ a.current = none ∧
      a.closed.isSome

/-- Every account has the shape of its state (01 R2), no two accounts that are not FREE share a key (R3), and at most one
account is ACTIVE for a stack and a substance (R2). -/
def AccountLaw (s : State) : Prop :=
  (∀ i, (s.account i).shaped) ∧
  (∀ i j, i ≠ j → (s.account i).state ≠ .free → (s.account j).state ≠ .free → (s.account i).key ≠ (s.account j).key) ∧
  ∀ i j, i ≠ j → (s.account i).state = .active → (s.account j).state = .active →
    (s.account i).key.stack = (s.account j).key.stack → (s.account i).key.substance ≠ (s.account j).key.substance

/-- Links and ACTIVE accounts name each other (01 R7), and a link fits its channel's stack and substance. -/
def LinkLaw (s : State) : Prop :=
  (∀ c i, (s.channel c).link = some i →
    (s.account i).state = .active ∧ (s.account i).source = some c ∧ fits (s.channel c) (s.account i) = true) ∧
  ∀ i, (s.account i).state = .active → ∃ c, (s.account i).source = some c ∧ (s.channel c).link = some i

/-- The Result Queue holds at most 128 entries, one is free unless the last is a gap entry (06 R106), and it is empty in a
HOLD that RESUME can leave (06 R109). -/
def QueueLaw (s : State) : Prop :=
  s.queue.length ≤ Config.queueCapacity ∧
  (s.queue.length = Config.queueCapacity → ∃ g, s.queue.getLast? = some (.gap g)) ∧
  (s.clock.state = .hold → s.clock.rangeEnd = false → s.queue = [])

/-- The clock record (04 R69, R70, R81): STOPPED exactly outside running; grace and supervision in RUN only; a minute is in
grace exactly while the grace timer runs; RUN and HOLD have a calendar; a calendar has S. -/
def ClockLaw (s : State) : Prop :=
  (s.clock.state = .stopped ↔ s.part ≠ .running) ∧
  (s.clock.inGrace.isSome ↔ s.clock.graceTimer.isSome) ∧
  (s.clock.inGrace.isSome → s.clock.state = .run) ∧
  (s.clock.supervision.isSome ↔ s.clock.state = .run) ∧
  (s.clock.state = .run ∨ s.clock.state = .hold → s.clock.calendarSet = true) ∧
  (s.clock.calendarSet = true → s.clock.saved.isSome) ∧
  s.clock.graceSetting ≤ 30

/-- One stack input record (03 R48 to R53): OFF exactly while the taken level is off, a declaration exactly in ABNORMAL, a
disabled stack off with no timer, a debounce time of 1 to 15. -/
def StackInput.lawful (r : StackInput) : Prop :=
  (r.state = .off ↔ r.takenOn = false) ∧ (r.declaration.isSome ↔ r.state = .abnormal) ∧
  (r.enable = false → r.takenOn = false ∧ r.timer = none) ∧ 1 ≤ r.debounce ∧ r.debounce ≤ 15

/-- Every stack input record is lawful. -/
def StackInputLaw (s : State) : Prop := ∀ i, (s.input i).lawful

/-- One allowance record (03 R58): a demand is asserted only while run_hh is at least 1, and the allowances are in range. -/
def StackAllowance.lawful (r : StackAllowance) : Prop :=
  (r.demand ≠ .released → 1 ≤ r.runHh) ∧ r.runHh ≤ 65535 ∧ 1 ≤ r.episodeAllowance ∧ r.episodeAllowance ≤ 96 ∧
  r.annualAllowance ≤ 2000

/-- Every allowance record is lawful. -/
def AllowanceLaw (s : State) : Prop := ∀ i, (s.allowance i).lawful

/-- The Episode List (08 R138, R139, R140): at most 32 episodes, distinct numbers from 1 to 65535, at most one OPEN episode
of a subject, an ENDED episode unacknowledged, an EXCEEDANCE episode's account neither FREE nor DRAFT, and the counter from
1 to 65535. -/
def EpisodeLaw (s : State) : Prop :=
  s.episodes.length ≤ Config.listCapacity ∧
  (s.episodes.map (·.number)).Nodup ∧
  (∀ e ∈ s.episodes, 1 ≤ e.number ∧ e.number ≤ 65535) ∧
  ((s.episodes.filter (·.isOpen)).map (·.subject)).Nodup ∧
  (∀ e ∈ s.episodes, e.isOpen = false → e.acknowledged = false) ∧
  (∀ e ∈ s.episodes, ∀ i, e.subject = .exceedance i → (s.account i).state ≠ .free ∧ (s.account i).state ≠ .draft) ∧
  1 ≤ s.episodeCounter ∧ s.episodeCounter ≤ 65535

/-- A slot pair under a clock (02 R42, R45): in RUN a LOADED slot's stamp is the open minute or the minute in grace, in
UNSET and HOLD no slot is LOADED, and the two slots are never LOADED with one stamp. -/
def SlotPair.lawful (c : Clock) (p : SlotPair) : Prop :=
  (c.state = .run → ∀ n, (p.get n).loaded = true → isCurrentMinute c (p.get n).stamp = true) ∧
  (c.state = .unset ∨ c.state = .hold → ∀ n, (p.get n).loaded = false) ∧
  (p.x.loaded = true → p.y.loaded = true → p.x.stamp ≠ p.y.stamp)

/-- Every slot pair is lawful. -/
def SlotLaw (s : State) : Prop := ∀ c, (s.slotPair c).lawful s.clock

/-- The ports (12 R183, R184, R186): a frame needs CSN low and drives MISO, nothing waits behind an idle TXD, and view
pointers stay within 511. That MISO is driven with a frame open and not otherwise, after a restart with CSN low too, is the
model's form (DESIGN CHOICE, assumption 11). -/
def PortLaw (s : State) : Prop :=
  (s.portA.frame.isSome → s.portA.csnLow = true) ∧
  (s.portA.miso.isSome ↔ s.portA.frame.isSome) ∧
  (s.portB.sending = none → s.portB.answers = []) ∧
  s.portA.common.view.pointer ≤ 511 ∧ s.portB.common.view.pointer ≤ 511

/-- What the owners have in hand (07 R114, R116, R118, 10 R170, R173): a request in hand waits in its port's area; an entry
in flight is in the queue; an owner of the running part with nothing in hand has nothing waiting; once the stop has begun no
request is in hand, the engine has the queue head in flight while there is one, and a stopped part has an empty queue. The
order of taking names exactly the owners with a request in hand, each once. That no request is in hand once the stop has
begun rests on the model's choice that they are completed in the step that begins it, and the order of taking is the model's
own record (DESIGN CHOICE, assumption 25). -/
def HandLaw (s : State) : Prop :=
  (∀ o p, inHand s o = some p → (waitingAt s o p).isSome ∧ s.part = .running) ∧
  (s.inFlight = some .entry → s.queue ≠ []) ∧
  (s.part = .running → ∀ o p, inHand s o = none → (waitingAt s o p).isSome → o = .engine ∧ s.inFlight = some .entry) ∧
  (s.inFlight = none → s.queue = []) ∧
  (s.part = .stopped → s.queue = []) ∧
  (∀ o, o ∈ s.handOrder ↔ (inHand s o).isSome) ∧ s.handOrder.Nodup

end Sys2Proof.Machine
end

