-- ==== Sys2Proof/Certificates/Slice0/Obligations.lean ====
section
/-! DEFINITION. The statements for the provers. A next state is written out in full where that is short; elsewhere it is
the old state with the fields named, which says that every other field is unchanged. -/

namespace Sys2Proof.Machine

/-! ## Vocabulary of the statements -/

/-- The state after an owner completes a request of port p with DONE: its changes are in `t`. The owner then takes what waits
next. -/
def doneAt (o : Owner) (p : Port) (r : Request) (vals : List Word32) (t : State) : State :=
  finish o (complete p r.code .done vals t)

/-- The state after an owner refuses a request of port p. -/
def refusedAt (o : Owner) (p : Port) (r : Request) (out : ReqOutcome) (s : State) : State :=
  finish o (complete p r.code out [] s)

/-- The command that is the performance of a request by its owner. -/
def requestRow : RequestCode → Instr
  | .createAccount => .createAccount
  | .setLimits => .setLimits
  | .linkSource => .linkSource
  | .activate => .activate
  | .amend => .amend
  | .reassign => .reassign
  | .retire => .retire
  | .deleteDraft => .deleteDraft
  | .certify => .certify
  | .mark => .mark
  | .configureChannel => .configureChannel
  | .startChannel => .startChannel
  | .stopChannel => .stopChannel
  | .releaseChannel => .releaseChannel
  | .readChannel => .readChannel
  | .setAllowance => .setAllowance
  | .readStack => .readStack
  | .setFeedInput => .setFeedInput
  | .declareAbnormal => .declareAbnormal
  | .endAbnormal => .endAbnormal
  | .ackEpisode => .ackEpisode
  | .readEpisode => .readEpisode
  | .find => .find
  | .readAccount => .readAccount
  | .setCalendar => .setCalendar
  | .setGrace => .setGrace
  | .resume => .resume

/-- The requests of 10 R166: code, request, owner and required level. -/
def requestTable : List (Nat × RequestCode × Owner × Nat) :=
  [(0x01, .createAccount, .engine, 1), (0x02, .setLimits, .engine, 1), (0x03, .linkSource, .engine, 1),
   (0x04, .activate, .engine, 0), (0x05, .amend, .engine, 0), (0x06, .reassign, .engine, 1), (0x07, .retire, .engine, 0),
   (0x08, .deleteDraft, .engine, 1), (0x09, .certify, .engine, 0), (0x0A, .mark, .engine, 2),
   (0x10, .configureChannel, .engine, 1), (0x11, .startChannel, .engine, 1), (0x12, .stopChannel, .engine, 1),
   (0x13, .releaseChannel, .engine, 1), (0x14, .readChannel, .engine, 2), (0x18, .setAllowance, .engine, 0),
   (0x19, .readStack, .engine, 2)] ++
  [(0x20, .setFeedInput, .monitor, 1), (0x21, .declareAbnormal, .monitor, 2), (0x22, .endAbnormal, .monitor, 2),
   (0x28, .ackEpisode, .engine, 2), (0x29, .readEpisode, .engine, 2), (0x2C, .find, .engine, 2),
   (0x2D, .readAccount, .engine, 2), (0x30, .setCalendar, .clock, 1), (0x31, .setGrace, .clock, 1), (0x32, .resume, .clock, 1)]

/-- The command that is the absorption of a queue head. -/
def absorptionRow : Entry → Instr
  | .result _ => .resultAbsorption
  | .stack _ => .stackEntryAbsorption
  | .dayEnd _ _ => .dayEndAbsorption
  | .yearEnd _ => .yearEndAbsorption
  | .gap _ => .gapWalk

/-- No owner has a request in hand. -/
def NoneInHand (s : State) : Prop := ∀ o, inHand s o = none

/-- No other owner has in hand a request that crosses owners, which could have been taken before o's. -/
def NoneAhead (o : Owner) (s : State) : Prop :=
  ∀ q, q ≠ o → ∀ p c r, inHand s q = some p → waitingAt s q p = some r → r.code = RequestCode.byte c → c.crossesOwners = false

/-- The owner of c completes request r of port p next, and no request in hand at another owner comes before it. What those
that come before add is said by RequestsInHandComeFirst. -/
def Takes (s : State) (c : RequestCode) (p : Port) (r : Request) : Prop :=
  takenRequest s c = some (p, r) ∧ NoneAhead c.owner s

/-- The engine's next claim is the queue head e, and no request in hand at another owner comes before it. -/
def Absorbs (s : State) (e : Entry) : Prop := claimedHead s = some e ∧ NoneAhead .engine s

/-- The request names account i and no other cfg_rev than the account's (01 R16). -/
def NamesAccount (r : Request) (s : State) (i : SlotNo) : Prop :=
  r.target = i.1 ∧ (r.expected = none ∨ r.expected = some (s.account i).cfgRev)

/-- RUN with no gap waiting: the clock and backlog conditions of 01 R16. -/
def LinksMayChange (s : State) : Prop := s.clock.state = .run ∧ gapWaiting s = false

/-- A port is about to take a data byte for a location: port A in a write frame at it, port B in the VALUE phase with its
window pointer there (12 R183, R184). -/
def Writes (p : Port) (loc : Loc) (s : State) : Prop :=
  match p with
  | .a => s.portA.frame = some (.data false loc)
  | .b => s.portB.lineBreak = false ∧ s.portB.phase = .value ∧ s.portB.pointer = loc

/-- A port after it has taken that byte: port A's frame at the next location, port B in the SELECTOR phase. -/
def afterByte (p : Port) (loc : Loc) (s : State) : State :=
  match p with
  | .a => { s with portA := { s.portA with frame := some (.data false (nextLoc loc)) } }
  | .b => { s with portB := { s.portB with phase := .selector } }

/-- Port A has a read frame whose next read with an effect is that of a location (assumption 10). -/
def FrameReads (loc : Loc) (s : State) : Prop :=
  ∃ at_ : Loc, s.portA.frame = some (.data true at_) ∧ nextEffectLoc at_ = loc

/-- Port A after it has sent a byte read at a location. -/
def afterRead (loc : Loc) (v : Byte) (s : State) : State :=
  { s with portA := { s.portA with frame := some (.data true (nextLoc loc)), miso := some v } }

/-- The marks of every stack frozen and the open minute's marks started from the present states (03 R57). -/
def frozenInputs (s : State) : Vector StackInput 4 :=
  tabulate (fun i =>
    { s.input i with
      frozen := some (s.input i).openMarks
      openMarks := ⟨(s.input i).state != .off, (s.input i).state == .abnormal⟩ })

/-- The frozen marks dropped and the open minute's marks started from the present states (03 R57). -/
def restartedInputs (s : State) : Vector StackInput 4 :=
  tabulate (fun i =>
    { s.input i with
      frozen := none
      openMarks := ⟨(s.input i).state != .off, (s.input i).state == .abnormal⟩ })

/-- A pulse is not under 30 s after the boundary reference (04 R73). -/
def NotEarly (s : State) : Prop := ∀ t, s.clock.reference = some t → t + 30 ≤ s.now

/-- The minute in grace collected and no longer in grace (04 R71, R72). -/
def graceCollected (g : GraceMinute) (s : State) : State :=
  { collectMinute g.stamp g.internal s with clock := { s.clock with inGrace := none, graceTimer := none } }

/-- The internal flag's counting on a current side (07 R125). -/
def internalNoted (e : ResultEntry) (c : CurrentSide) : CurrentSide :=
  if e.internal then
    { c with marks := c.marks.add .internalTime, year := { c.year with hhInternal := c.year.hhInternal + 1 } }
  else c

/-- An account with another current side. -/
def Account.withSide (a : Account) (c : CurrentSide) : Account := { a with current := some c }

/-- The state after the head of the queue has been absorbed; the engine takes what it chooses next. -/
def headGone (s : State) : State :=
  takeUp .engine { s with queue := s.queue.tail, inFlight := none, lastClaim := .entry }

/-- An integer q is a over n rounded to the nearest integer, an exact half away from zero (05 R90). -/
def Nearest (a : Int) (n : Nat) (q : Int) : Prop :=
  2 * (a - q * n).natAbs ≤ n ∧ (2 * (a - q * n).natAbs = n → a.natAbs < (q * n).natAbs)

/-- The locations whose read has an effect on port A (12 R182, R186, R188). -/
def effectLocs : List Loc := [0x04, 0x53, 0x79, 0x7F]

/-- The only slot of a channel that is LOADED with stamp m. -/
def LoadedFor (s : State) (c : ChannelNo) (m : MinuteStamp) (n : SlotName) : Prop :=
  ((s.slotPair c).get n).loaded = true ∧ ((s.slotPair c).get n).stamp = m ∧
    (((s.slotPair c).get n.other).loaded = true → ((s.slotPair c).get n.other).stamp ≠ m)

/-- No slot of a channel is LOADED with stamp m. -/
def NoneLoadedFor (s : State) (c : ChannelNo) (m : MinuteStamp) : Prop :=
  ∀ n, ((s.slotPair c).get n).loaded = true → ((s.slotPair c).get n).stamp ≠ m

/-- A year part after the close of day D with a day outcome and average (07 R128). -/
def yearAfterDay (t : Terms) (y : YearPart) (D average : Nat) : DayOutcome → YearPart
  | .valid =>
    { y with
      daysValid := y.daysValid + 1
      daysOver := y.daysOver + (if ∃ l ∈ t.day, l < average then 1 else 0)
      maxDay :=
        match y.maxDay with
        | none => some ⟨average, D⟩
        | some m => if m.average < average then some ⟨average, D⟩ else some m }
  | .invalid => { y with daysInvalid := y.daysInvalid + 1 }
  | .abnormalOnly => { y with daysAbnormal := y.daysAbnormal + 1 }
  | .excluded => { y with daysExcluded := y.daysExcluded + 1 }

/-- A DAY_END of day D of year Y applies to an account with a current side (07 R126). -/
def DayApplies (a : Account) (c : CurrentSide) (Y D : Nat) : Prop :=
  a.state = .active ∧ (∃ h, a.activatedAt = some h ∧ (h.year < Y ∨ h.year = Y ∧ h.day ≤ D)) ∨
  a.state = .frozen ∧
    ¬ (c.day.hhValid = 0 ∧ c.day.hhInvalid = 0 ∧ c.day.hhExcluded = 0 ∧ c.day.hhAbnormal = 0 ∧ c.day.hhGap = 0)

/-- A YEAR_END of year Y applies to an account (07 R131). -/
def YearApplies (a : Account) (Y : Nat) : Prop :=
  (a.state = .active ∨ a.state = .frozen) ∧ a.current.isSome ∧ ∃ h, a.activatedAt = some h ∧ h.year ≤ Y

/-- A side with the ended episodes folded into its year part (08 R145). -/
def foldedSide (eps : List Episode) (c : CurrentSide) : CurrentSide :=
  { c with year := { c.year with
      episodesEnded := c.year.episodesEnded + eps.length
      longestEpisode := eps.foldl (fun n e => max n e.length) c.year.longestEpisode } }

/-- The Event Unit has had a source raised for slots, the highest last; no slot, or a source not enabled, leaves its
record (11 R176). -/
def RaisedForSlots (u v : EventUnit) (source : Fin 16) (raised : SlotNo → Prop) : Prop :=
  (∀ i, (u.sources.get source).enable = true → raised i → (∀ j, i < j → ¬ raised j) →
    v.sources.get source = { u.sources.get source with pending := true, detail := BitVec.ofNat 16 i }) ∧
  ((u.sources.get source).enable = false ∨ (∀ i, ¬ raised i) → v.sources.get source = u.sources.get source)

/-- A source is presentable: pending, not masked and, with tracking, above every source in service (11 R177). -/
def Presentable (u : EventUnit) (i : Fin 16) : Prop :=
  (u.sources.get i).pending = true ∧ (u.sources.get i).masked = false ∧
    (u.tracking = true → ∀ j, (u.sources.get j).inService = true → j < i)

/-- A FIND compares with k: the care set of the request names five fields at most, and each field in it has its compare
value, in range (09 R158, 12 R185). -/
def Compares (r : Request) (k : Compare) : Prop :=
  let care := fun n : Nat => (r.word 3).getLsbD n
  (r.word 3).toNat < 32 ∧
  k.stack = (if care 0 then some r.stack else none) ∧ (care 0 = true → r.stack ≤ 3) ∧
  k.substance = (if care 1 then some r.substance else none) ∧ (care 1 = true → r.substance ≤ 15) ∧
  k.edition = (if care 2 then some r.edition else none) ∧ (care 2 = true → r.edition ≤ 255) ∧
  (care 3 = false → k.state = none) ∧
  (care 3 = true → ∃ v : Nat, v ≤ 4 ∧ r.arg 1 = some (v : Int) ∧ k.state = some v) ∧
  (care 4 = false → k.closed = none) ∧
  (care 4 = true → ∃ v : Nat, v ≤ 1 ∧ r.arg 2 = some (v : Int) ∧ k.closed = some v)

/-! ### Bytes of a snapshot -/

/-- The number in the n bytes from an offset on, the lowest byte first (12 R181). -/
def leNat (b : List Byte) (offset n : Nat) : Nat :=
  ((b.drop offset).take n).foldr (fun x acc => x.toNat + 256 * acc) 0

/-- The n bytes from an offset on show the number v. -/
def Shows (b : List Byte) (offset n v : Nat) : Prop := leNat b offset n = v % 256 ^ n

/-- The n bytes from an offset on show an optional number, all ones when absent (12 R186). -/
def ShowsOr (b : List Byte) (offset n : Nat) (v : Option Nat) : Prop :=
  (v = none → leNat b offset n = 256 ^ n - 1) ∧ ∀ k, v = some k → Shows b offset n k

/-- The four bytes from an offset on show a stamp of year, day and minute or half-hour (12 R185). -/
def ShowsStamp (b : List Byte) (offset year day part : Nat) : Prop :=
  2000 ≤ year → leNat b offset 4 = part % 2048 + 2048 * (day % 512) + 1048576 * ((year - 2000) % 256)

/-- The four bytes from an offset on show an optional half-hour stamp, all ones when absent. -/
def ShowsStampOr (b : List Byte) (offset : Nat) (h : Option HalfHourStamp) : Prop :=
  (h = none → leNat b offset 4 = 0xFFFFFFFF) ∧ ∀ x, h = some x → ShowsStamp b offset x.year x.day x.hh

/-- The 44 bytes from an offset on show a year part (12 R186). -/
def ShowsYear (b : List Byte) (o : Nat) (y : YearPart) : Prop :=
  Shows b o 2 y.hhValid ∧ Shows b (o + 2) 2 y.hhInvalid ∧ Shows b (o + 4) 2 y.hhExcluded ∧
  Shows b (o + 6) 2 y.hhAbnormal ∧ Shows b (o + 8) 2 y.hhGap ∧ Shows b (o + 10) 2 y.hhOverShort ∧
  Shows b (o + 12) 2 y.hhOverPct ∧ Shows b (o + 14) 2 y.hhInternal ∧ Shows b (o + 16) 2 y.daysValid ∧
  Shows b (o + 18) 2 y.daysInvalid ∧ Shows b (o + 20) 2 y.daysExcluded ∧ Shows b (o + 22) 2 y.daysAbnormal ∧
  Shows b (o + 24) 2 y.daysOver ∧ ShowsOr b (o + 26) 4 (y.maxDay.map (·.average)) ∧
  ShowsOr b (o + 30) 2 (y.maxDay.map (·.day)) ∧ ShowsOr b (o + 32) 4 (y.maxHalfHour.map (·.value)) ∧
  ShowsStampOr b (o + 36) (y.maxHalfHour.map (·.stamp)) ∧ Shows b (o + 40) 2 y.episodesEnded ∧
  Shows b (o + 42) 2 y.longestEpisode

/-- The bytes of an offset range are all zero. -/
def ZeroFrom (b : List Byte) (first count : Nat) : Prop := leNat b first count = 0

/-- A side after a VALID half-hour with the abnormal flag clear and validated value v (07 R121, R123). -/
def validSide (t : Terms) (v : Nat) (h : HalfHourStamp) (c : CurrentSide) : CurrentSide :=
  let overShort : Nat := if ∃ l ∈ t.short, l < v then 1 else 0
  let overPct : Nat := if ∃ l ∈ t.pct, l.limit < v then 1 else 0
  { c with
    day := { c.day with
      hhValid := c.day.hhValid + 1, sum := c.day.sum + v, hhOverShort := c.day.hhOverShort + overShort }
    year := { c.year with
      hhValid := c.year.hhValid + 1
      hhOverShort := c.year.hhOverShort + overShort
      hhOverPct := c.year.hhOverPct + overPct
      maxHalfHour :=
        match c.year.maxHalfHour with
        | none => some ⟨v, h⟩
        | some m => if m.value < v then some ⟨v, h⟩ else some m } }

end Sys2Proof.Machine

open Sys2Proof Sys2Proof.Machine

/-! ## The queue of commands and reset -/

/-- The command at the front of the queue is what a step executes, on the state with the queue's rest. -/
def Obligations.StepTakesFrontCommand : Prop :=
  ∀ (c : Instr) (rest : List Instr) (s : State), step { s with pending := c :: rest } = exec c { s with pending := rest }

/-- With no command waiting: a due timer's expiry is taken; otherwise the next byte of a read frame at a location whose read
has no effect is shifted out and the frame moves on; otherwise a second passes. That these happen with no command waiting,
and their order, are the model's choice (assumptions 2, 3 and 10). -/
def Obligations.EmptyQueueLetsTimePass : Prop :=
  ∀ s : State, s.pending = [] →
    let noTimer := (∀ e, s.clock.graceTimer = some e → s.now < e) ∧ (∀ e, s.clock.supervision = some e → s.now < e) ∧
      ∀ i e, (s.input i).timer = some e → s.now < e
    (noTimer → (∀ loc, s.portA.frame = some (.data true loc) → loc ∈ effectLocs) →
      step s = .next { s with now := s.now + 1 }) ∧
    (∀ loc, noTimer → s.portA.frame = some (.data true loc) → loc ∉ effectLocs →
      step s = .next { s with
        portA := { s.portA with frame := some (.data true (loc + 1)), miso := some (windowRead .a loc s).1 } }) ∧
    (∀ e, s.clock.state = .run → s.clock.graceTimer = some e → e ≤ s.now → step s = exec .graceExpiry s) ∧
    (∀ i e, (∀ g, s.clock.graceTimer = some g → s.now < g) → s.part ≠ .stopped → (s.input i).timer = some e → e ≤ s.now →
      (∀ j, j < i → ∀ d, (s.input j).timer = some d → s.now < d) → step s = exec (.debounceExpiry i) s) ∧
    (∀ e, (∀ g, s.clock.graceTimer = some g → s.now < g) → (∀ i d, (s.input i).timer = some d → s.now < d) →
      s.clock.state = .run → s.clock.supervision = some e → e ≤ s.now → step s = exec .supervisionExpiry s)

/-- The delivered part after power-on: every table, register and port, and time. That State.reset is this part is the
model's choice (assumption 16), and so are the levels of its input pins, FEED lines off, on which the idle debounce timers of
the enabled stacks rest, supply, RSTN and CSN high and no break (assumption 15), the time 0 (assumption 2), MISO not driven
(assumption 11), the held high byte of the detail data (assumption 26) and the empty order of taking (assumption 25). -/
def Obligations.ResetIsDeliveredPart : Prop :=
  let s := State.reset
  (∀ i, s.account i =
    { state := .free, key := ⟨0, 0, 0⟩, source := none, terms := ⟨none, none, none, 0, 5, 10⟩, cfgRev := 0,
      activatedAt := none, frozenAt := none, current := none, closed := none }) ∧
  (∀ c, s.channel c =
    { state := .unused, stack := 0, substance := 0, low := 0, high := 0, minMinutes := 20, oxygen := none, link := none }) ∧
  (∀ i, s.allowance i =
    { episodeAllowance := 8, annualAllowance := 120, runHh := 0, yearAbnHh := 0, episodesYear := 0, longestRun := 0,
      exceeded := false, demand := .released, last := none, previous := ⟨0, 0, 0, false⟩ }) ∧
  s.clock =
    { state := .unset, position := ⟨0, 0, 0⟩, calendarSet := false, graceSetting := 10, saved := none, rangeEnd := false,
      source := .external, inGrace := none, graceTimer := none, supervision := none, reference := none } ∧
  (∀ i, s.input i =
    { enable := true, debounce := 3, takenOn := false, state := .off, declaration := none, openMarks := ⟨false, false⟩,
      frozen := none, timer := none }) ∧
  (∀ c n, (s.slotPair c).get n =
    { loaded := false, year := 0, day := 0, minute := 0, value := 0, quality := 0, code := .none }) ∧
  (∀ c, s.accumulators.get c =
    { operating := 0, valid := 0, sum := 0, missing := 0, service := 0, fault := 0, range := 0, oxygen := 0,
      abnormal := false, internal := false }) ∧
  (∀ i, s.counts.get i = ⟨0, 0⟩) ∧
  s.queue = [] ∧ s.episodes = [] ∧ s.episodeCounter = 1 ∧ s.inFlight = none ∧ s.lastClaim = .none ∧
  s.monitorHand = none ∧ s.clockHand = none ∧ s.handOrder = [] ∧
  (∀ p,
    let c := s.common p
    c.area.state = .idle ∧ c.area.busy = false ∧ c.area.latched = none ∧ c.area.response.outcome = none ∧
    c.area.response.code = 0 ∧ (∀ i, c.area.response.values.get i = 0) ∧ c.view.snapshot = .none ∧ c.view.pointer = 0 ∧
    c.view.held = 0 ∧ c.capture = ⟨0, 0, 0⟩ ∧ (∀ i, c.block.get i = 0)) ∧
  s.portA.csnLow = false ∧ s.portA.frame = none ∧ s.portA.miso = none ∧ s.portA.channelSelect = 0 ∧ s.portA.slotSelect = 0 ∧
  s.portB.phase = .selector ∧ s.portB.pointer = 0 ∧ s.portB.sending = none ∧ s.portB.answers = [] ∧
  s.portB.lineBreak = false ∧
  (∀ i, s.events.sources.get i = ⟨false, false, false, false, 0⟩) ∧ s.events.lastAck = none ∧
  s.events.detailPointer = 0 ∧ s.events.tracking = false ∧ s.events.vectorBase = 0 ∧ s.events.clearHeld = 0 ∧
  s.events.serviceHeld = 0 ∧ s.events.highNext = false ∧ s.events.detailHeld = 0 ∧
  intPin s = true ∧ (∀ i, stopPin s i = false) ∧
  s.now = 0 ∧ s.part = .running ∧ s.supplyGood = true ∧ s.rstnHigh = true ∧ (∀ i, s.feedLine i = false) ∧ s.pending = []

/-- Every law of the tables, the queue, the clock, the slots, the ports and the owners holds right after reset. -/
def Obligations.LawsHoldAtReset : Prop :=
  AccountLaw .reset ∧ LinkLaw .reset ∧ QueueLaw .reset ∧ ClockLaw .reset ∧ StackInputLaw .reset ∧ AllowanceLaw .reset ∧
  EpisodeLaw .reset ∧ SlotLaw .reset ∧ PortLaw .reset ∧ HandLaw .reset

/-! ## The Period Clock -/

/-- MINP_PULSE, with no request in hand. Taken as a boundary: with a grace setting above 0 and nothing in grace; with a
minute in grace, which is collected first; and with a grace setting of 0, which collects the ended minute at once. Where it
takes no boundary: ignored outside RUN, and under 30 s after the reference with source EXTERNAL; with source INTERNAL it then
returns the source and restarts supervision. -/
def Obligations.MinutePulseTakenBySource : Prop :=
  (∀ s : State, NoneInHand s → s.clock.state = .run → NotEarly s →
     (∀ g, s.clock.inGrace = some g → HandLaw s → exec .minpPulse s = exec .minpPulse (graceCollected g s)) ∧
     (s.clock.position ≠ lastMinute → s.clock.inGrace = none → 0 < s.clock.graceSetting →
       exec .minpPulse s = .next { s with
         inputs := frozenInputs s
         clock := { s.clock with
           source := .external
           inGrace := some ⟨s.clock.position, false⟩
           position := s.clock.position.next
           graceTimer := some (s.now + s.clock.graceSetting)
           supervision := some (s.now + 65)
           reference := some s.now } }) ∧
     (s.clock.position ≠ lastMinute → s.clock.inGrace = none → s.clock.graceSetting = 0 →
       exec .minpPulse s = .next { collectMinute s.clock.position false { s with inputs := frozenInputs s } with
         clock := { s.clock with
           source := .external
           position := s.clock.position.next
           graceTimer := none
           supervision := some (s.now + 65)
           reference := some s.now } })) ∧
  (∀ s : State, NoneInHand s → s.clock.state ≠ .run → exec .minpPulse s = .next s) ∧
  ∀ (s : State) (t : Nat), NoneInHand s → s.clock.state = .run → s.clock.reference = some t → s.now < t + 30 →
    (s.clock.source = .external → exec .minpPulse s = .next s) ∧
    (s.clock.source = .internal →
      exec .minpPulse s = .next { s with
        clock := { s.clock with source := .external, supervision := some (s.now + 65), reference := some s.now } })

/-- A supervision expiry: time, and the source INTERNAL with CLOCK_LOST on that change (04 R74). -/
def sourceLost (e : Nat) (s : State) : State :=
  { s with
    now := max s.now e
    events := if s.clock.source = .external then s.events.record .clockLost 0 else s.events
    clock := { s.clock with source := .internal } }

/-- SUPERVISION_EXPIRY, with no request in hand, generates a boundary with the internal flag: the source becomes INTERNAL,
CLOCK_LOST is raised on that change, and the next supervision runs for 60 s; a minute in grace is collected first, and with a
grace setting of 0 the ended minute at once. GRACE_EXPIRY collects the minute in grace, which is then absent. Time has then
reached the expiry (assumption 2). -/
def Obligations.ClockTimersExpire : Prop :=
  (∀ (s : State) (e : Nat), NoneInHand s → s.clock.state = .run → s.clock.supervision = some e →
     (∀ g, s.clock.inGrace = some g → HandLaw s →
       exec .supervisionExpiry s = exec .supervisionExpiry (graceCollected g (sourceLost e s))) ∧
     (s.clock.position ≠ lastMinute → s.clock.inGrace = none → 0 < s.clock.graceSetting →
       exec .supervisionExpiry s = .next { sourceLost e s with
         inputs := frozenInputs s
         clock := { s.clock with
           source := .internal
           inGrace := some ⟨s.clock.position, true⟩
           position := s.clock.position.next
           graceTimer := some (max s.now e + s.clock.graceSetting)
           supervision := some (max s.now e + 60)
           reference := some (max s.now e) } }) ∧
     (s.clock.position ≠ lastMinute → s.clock.inGrace = none → s.clock.graceSetting = 0 →
       exec .supervisionExpiry s = .next
         { collectMinute s.clock.position true { sourceLost e s with inputs := frozenInputs s } with
           clock := { s.clock with
             source := .internal
             position := s.clock.position.next
             graceTimer := none
             supervision := some (max s.now e + 60)
             reference := some (max s.now e) } })) ∧
  ∀ (s : State) (g : GraceMinute) (e : Nat), NoneInHand s → s.clock.state = .run → s.clock.inGrace = some g →
    s.clock.graceTimer = some e → exec .graceExpiry s = .next (graceCollected g { s with now := max s.now e })

/-- A boundary in the last minute of 2199, by a pulse or by the supervision timer and with no request in hand, collects that
minute, saves S, sets the range-end indication and enters HOLD with the timers idle; a minute in grace is collected first, as
at every boundary. That the boundary reference stays is the model's choice (assumption 17). -/
def Obligations.EndOfRangeHolds : Prop :=
  ∀ s : State, NoneInHand s → s.clock.state = .run → s.clock.position = lastMinute → s.clock.inGrace = none →
    let held := fun source : TimeSource => { s.clock with
      source := source, state := .hold, saved := some lastMinute, rangeEnd := true, graceTimer := none, supervision := none }
    (NotEarly s →
      exec .minpPulse s = .next { collectMinute lastMinute false { s with inputs := frozenInputs s } with
        clock := held .external }) ∧
    ∀ e, s.clock.supervision = some e →
      exec .supervisionExpiry s = .next
        { collectMinute lastMinute true { sourceLost e s with inputs := frozenInputs s } with clock := held .internal }

/-- SET_GRACE stores a setting of 0 to 30 and returns the old one, in every clock state; a running grace timer keeps its
expiry; any other argument is refused with ARGUMENT. -/
def Obligations.SetGraceStoresSetting : Prop :=
  ∀ (s : State) (p : Port) (r : Request), Takes s .setGrace p r →
    (∀ g : Nat, g ≤ 30 → r.arg 1 = some (g : Int) →
      exec .setGrace s = .next (doneAt .clock p r [num s.clock.graceSetting]
        { s with clock := { s.clock with graceSetting := g } })) ∧
    ((∀ g : Nat, g ≤ 30 → r.arg 1 ≠ some (g : Int)) →
      exec .setGrace s = .next (refusedAt .clock p r .argument s))

/-- SET_CALENDAR: its checks in order, and its changes to the clock, the slots, the accumulators, the counts and the marks.
That an absent argument is refused at the range check, before IN_USE and BACKLOG, is the model's choice (assumption 27). -/
def Obligations.SetCalendarStatesPosition : Prop :=
  ∀ (s : State) (p : Port) (r : Request), Takes s .setCalendar p r →
    (∀ y d m : Nat, r.arg 1 = some (y : Int) → r.arg 2 = some (d : Int) → r.arg 3 = some (m : Int) →
      2000 ≤ y → y ≤ 2199 → 1 ≤ d → d ≤ daysInYear y → m ≤ 1439 →
      (∀ i, (s.account i).state = .free ∨ (s.account i).state = .draft) → s.queue = [] →
      exec .setCalendar s = .next (doneAt .clock p r [num s.clock.state.number] { s with
        clock := { s.clock with
          state := .run, position := ⟨y, d, m⟩, calendarSet := true, rangeEnd := false, saved := some ⟨y, d, m⟩,
          source := .external, inGrace := none, graceTimer := none, supervision := some (s.now + 65), reference := none }
        slots := tabulate (fun c =>
          ⟨if (s.slotPair c).x.loaded then { (s.slotPair c).x with loaded := false, code := .discardedCalendar }
            else (s.slotPair c).x,
           if (s.slotPair c).y.loaded then { (s.slotPair c).y with loaded := false, code := .discardedCalendar }
            else (s.slotPair c).y⟩)
        accumulators := Vector.replicate 48 .empty
        counts := Vector.replicate 4 ⟨0, 0⟩
        inputs := restartedInputs s })) ∧
    (minuteArg r = none → exec .setCalendar s = .next (refusedAt .clock p r .argument s)) ∧
    (∀ i m, minuteArg r = some m →
      (s.account i).state = .active ∨ (s.account i).state = .frozen ∨ (s.account i).state = .lapsed →
      exec .setCalendar s = .next (refusedAt .clock p r .inUse s)) ∧
    (∀ m, minuteArg r = some m → (∀ i, (s.account i).state = .free ∨ (s.account i).state = .draft) → s.queue ≠ [] →
      exec .setCalendar s = .next (refusedAt .clock p r .backlog s)) ∧
    (∀ m, minuteArg r = some m ↔
      r.arg 1 = some (m.year : Int) ∧ r.arg 2 = some (m.day : Int) ∧ r.arg 3 = some (m.minute : Int) ∧
      2000 ≤ m.year ∧ m.year ≤ 2199 ∧ 1 ≤ m.day ∧ m.day ≤ daysInYear m.year ∧ m.minute ≤ 1439)

/-- RESUME in HOLD: the outage gap when P lies in a later half-hour than S, the MISSING minutes before P, and RUN; and its
refusals: STATE outside HOLD, ARGUMENT for arguments that are no calendar minute, at the end of the calendar range, for P
before S, and for a gap above 65,535. That an absent argument is refused behind STATE is the model's choice (assumption
27). -/
def Obligations.ResumeEntersRun : Prop :=
  (∀ (s : State) (p : Port) (r : Request), Takes s .resume p r →
    (s.clock.state ≠ .hold → exec .resume s = .next (refusedAt .clock p r .state s)) ∧
    (s.clock.state = .hold → minuteArg r = none ∨ s.clock.rangeEnd = true →
      exec .resume s = .next (refusedAt .clock p r .argument s)) ∧
    ∀ P S : MinuteStamp, s.clock.state = .hold → minuteArg r = some P → s.clock.saved = some S →
      P.before S = true ∨ 65535 < P.halfHour.count - S.halfHour.count →
      exec .resume s = .next (refusedAt .clock p r .argument s)) ∧
  ∀ (s : State) (p : Port) (r : Request) (P S : MinuteStamp), Takes s .resume p r →
    s.clock.state = .hold → s.clock.rangeEnd = false → s.clock.saved = some S → minuteArg r = some P →
    P.before S = false → P.halfHour.count - S.halfHour.count ≤ 65535 →
    let gap := P.halfHour.count - S.halfHour.count
    let n := P.minute % 30
    let t : State := { s with
      clock := { s.clock with
        state := .run, position := P, source := .external, inGrace := none, graceTimer := none,
        supervision := some (s.now + 65), reference := none }
      slots := tabulate (fun c =>
        ⟨{ (s.slotPair c).x with loaded := false }, { (s.slotPair c).y with loaded := false }⟩)
      accumulators := Vector.replicate 48 { Accumulator.empty with operating := n, missing := n }
      counts := Vector.replicate 4 ⟨0, 0⟩
      inputs := restartedInputs s }
    exec .resume s = .next (doneAt .clock p r [num gap, S.word]
      (if gap = 0 then t
        else takeUp .engine { t with
          queue := s.queue ++ [.gap ⟨S.halfHour, gap, linkedAccounts s⟩]
          events := s.events.record .backlog S.halfHour.hh }))

/-! ## The Minute Collector and the Result Queue -/

/-- What a collection of minute m does to each posting slot, by the channel's state. -/
def Obligations.CollectionActsOnSlots : Prop :=
  ∀ (m : MinuteStamp) (internal : Bool) (s : State) (c : ChannelNo) (n : SlotName),
    let p := (s.slotPair c).get n
    let q := ((collectMinute m internal s).slotPair c).get n
    ((s.channel c).state = .collecting → p.loaded = true → p.stamp = m → q = { p with loaded := false, code := .taken }) ∧
    ((s.channel c).state = .collecting → p.loaded = true → p.stamp ≠ m → q = p) ∧
    ((s.channel c).state ≠ .collecting → p.loaded = true → q = { p with loaded := false, code := .discardedStopped }) ∧
    (p.loaded = false → q = p)

/-- The class of a minute for a COLLECTING channel, by the seven cases in order; the oxygen source is on the channel's stack
(02 R31). -/
def Obligations.MinuteClassFollowsCases : Prop :=
  ∀ (s : State) (m : MinuteStamp) (c : ChannelNo) (f : Marks), (s.channel c).state = .collecting →
    (s.inputs.get (s.channel c).stack).frozen = some f →
    (f.fired = false → minuteClass s m c = .notOperating) ∧
    (f.fired = true → NoneLoadedFor s c m → minuteClass s m c = .missing) ∧
    ∀ n, f.fired = true → LoadedFor s c m n →
      let p := (s.slotPair c).get n
      let q := p.qualityCode
      let v := p.value.toInt
      (q = 2 ∨ q = 3 → minuteClass s m c = .service) ∧
      (q = 1 → minuteClass s m c = .fault) ∧
      (q = 0 → v < (s.channel c).low ∨ (s.channel c).high < v → minuteClass s m c = .range) ∧
      (q = 0 → (s.channel c).low ≤ v → v ≤ (s.channel c).high →
        ((s.channel c).oxygen = none → minuteClass s m c = .valid) ∧
        ∀ o, (s.channel c).oxygen = some o → (s.channel o.source).stack = (s.channel c).stack →
          let src := s.channel o.source
          (src.state ≠ .collecting → minuteClass s m c = .oxygen) ∧
          (src.state = .collecting → NoneLoadedFor s o.source m → minuteClass s m c = .oxygen) ∧
          ∀ k, src.state = .collecting → LoadedFor s o.source m k →
            let w := (s.slotPair o.source).get k
            (w.qualityCode = 1 ∨ w.qualityCode = 2 ∨ w.qualityCode = 3 → minuteClass s m c = .oxygen) ∧
            (w.value.toInt < src.low ∨ src.high < w.value.toInt ∨ 2000 ≤ w.value.toInt → minuteClass s m c = .oxygen) ∧
            (w.qualityCode = 0 → src.low ≤ w.value.toInt → w.value.toInt ≤ src.high → w.value.toInt < 2000 →
              minuteClass s m c = .valid))

/-- What the collection of a minute adds to a COLLECTING channel's accumulator, to that of a linked channel that is not
COLLECTING, and to a stack's count; the value of a VALID minute, normalised where the channel has an oxygen source;
MINUTE_INCOMPLETE with the lowest channel of class MISSING; that nothing but slots, accumulators, counts, frozen marks and
events changes; and the close of the half-hour after its last minute. -/
def Obligations.CollectionCountsMinute : Prop :=
  ∀ (m : MinuteStamp) (internal : Bool) (s : State),
    let isMissing := fun c => (s.channel c).state = .collecting ∧ minuteClass s m c = .missing
    ∃ t : State, collectMinute m internal s =
      (if m.minute % 30 = 29 then closeHalfHour ⟨m.year, m.day, m.minute / 30⟩ t else t) ∧
    (∀ c, (s.channel c).state = .collecting →
      let a := s.accumulators.get c
      let b := t.accumulators.get c
      let k := minuteClass s m c
      b.valid = a.valid + (k == .valid).toNat ∧
      b.missing = a.missing + (k == .missing).toNat ∧ b.service = a.service + (k == .service).toNat ∧
      b.fault = a.fault + (k == .fault).toNat ∧ b.range = a.range + (k == .range).toNat ∧
      b.oxygen = a.oxygen + (k == .oxygen).toNat ∧
      b.operating = a.operating + (k != .notOperating).toNat ∧
      b.abnormal = (a.abnormal || (k != .notOperating && (frozenMarks s (s.channel c).stack).abnormal)) ∧
      b.internal = (a.internal || internal) ∧
      (k ≠ .valid → b.sum = a.sum) ∧
      ∀ n, k = .valid → LoadedFor s c m n →
        let v := ((s.slotPair c).get n).value.toInt
        ((s.channel c).oxygen = none → b.sum = a.sum + v) ∧
        ∀ o j, (s.channel c).oxygen = some o → LoadedFor s o.source m j →
          let o2 := ((s.slotPair o.source).get j).value.toInt
          Nearest (v * (2100 - (o.reference : Int))) (2100 - o2).toNat (b.sum - a.sum)) ∧
    (∀ c, (s.channel c).state ≠ .collecting → (s.channel c).link = none → t.accumulators.get c = s.accumulators.get c) ∧
    (∀ c, (s.channel c).state ≠ .collecting → (s.channel c).link ≠ none →
      let f := frozenMarks s (s.channel c).stack
      let a := s.accumulators.get c
      t.accumulators.get c =
        { a with
          operating := a.operating + f.fired.toNat
          missing := a.missing + f.fired.toNat
          abnormal := a.abnormal || (f.fired && f.abnormal)
          internal := a.internal || internal }) ∧
    (∀ i, t.counts.get i =
      ⟨(s.counts.get i).fired + (frozenMarks s i).fired.toNat, (s.counts.get i).abnormal + (frozenMarks s i).abnormal.toNat⟩) ∧
    (∀ c, isMissing c → (∀ d, d < c → ¬ isMissing d) → t.events = s.events.record .minuteIncomplete c) ∧
    ((∀ c, ¬ isMissing c) → t.events = s.events) ∧
    t = { s with
      slots := t.slots
      accumulators := t.accumulators
      counts := t.counts
      inputs := tabulate (fun i => { s.input i with frozen := none })
      events := t.events }

/-- The close of half-hour h: the batch is appended whole when k + 1 entries are free; otherwise it extends the last gap
entry when that ends just before h and counts below 65535, starts a gap entry when an entry is free, or extends the last
gap entry of a full queue up to h; a batch of no entries leaves the queue. HALF_HOUR_CLOSED is raised, behind BACKLOG where
an entry starts; the accumulators and counts restart; an engine with nothing in flight takes what it chooses; and nothing
else changes. -/
def Obligations.HalfHourCloseOffersBatch : Prop :=
  ∀ (h : HalfHourStamp) (s : State),
    let t := closeHalfHour h s
    let b := batch s h
    let noRoom := b ≠ [] ∧ 128 - s.queue.length < b.length + 1
    let newEntry := t.queue = s.queue ++ [.gap ⟨h, 1, linkedAccounts s⟩] ∧
      t.events = (s.events.record .backlog h.hh).record .halfHourClosed h.hh
    let closedOnly := t.events = s.events.record .halfHourClosed h.hh
    t = takeUp .engine { s with
      queue := t.queue
      accumulators := Vector.replicate 48 .empty
      counts := Vector.replicate 4 ⟨0, 0⟩
      events := t.events } ∧
    (b = [] → t.queue = s.queue ∧ closedOnly) ∧
    (b ≠ [] → b.length + 1 ≤ 128 - s.queue.length → t.queue = s.queue ++ b ∧ closedOnly) ∧
    (∀ g, noRoom → s.queue.getLast? = some (.gap g) → g.start.count + g.count = h.count → g.count < 65535 →
      t.queue = s.queue.dropLast ++ [.gap { g with count := g.count + 1 }] ∧ closedOnly) ∧
    (∀ g, noRoom → s.queue.length < 128 → s.queue.getLast? = some (.gap g) →
      g.start.count + g.count ≠ h.count ∨ 65535 ≤ g.count → newEntry) ∧
    (noRoom → s.queue.length < 128 → (∀ g, s.queue.getLast? ≠ some (.gap g)) → newEntry) ∧
    (∀ g, noRoom → 128 ≤ s.queue.length → s.queue.getLast? = some (.gap g) → g.start.count + g.count < h.count →
      t.queue = s.queue.dropLast ++ [.gap { g with count := h.count - g.start.count + 1 }] ∧ closedOnly)

/-- The batch of half-hour h: one RESULT entry for each linked channel, one STACK entry for each enabled stack, a DAY_END
behind half-hour 47 and a YEAR_END on the last day of the year; and the class and raw average of each RESULT entry. -/
def Obligations.BatchHoldsHalfHour : Prop :=
  ∀ (s : State) (h : HalfHourStamp), ∃ cls : ChannelNo → HalfHourClass,
    batch s h =
      (List.finRange 48).filterMap (fun c => (s.channel c).link.map (fun slot => Entry.result
        { slot := slot, stamp := h, cls := cls c, abnormal := (s.accumulators.get c).abnormal
          internal := (s.accumulators.get c).internal })) ++
      ((List.finRange 4).filter (fun i => (s.input i).enable)).map (fun i => Entry.stack
        { stack := i, stamp := h, fired := (s.counts.get i).fired, abnormal := (s.counts.get i).abnormal }) ++
      (if h.hh = 47 then [.dayEnd h.year h.day] else []) ++
      (if h.hh = 47 ∧ h.day = daysInYear h.year then [.yearEnd h.year] else []) ∧
    ∀ c,
      let a := s.accumulators.get c
      let least := (s.channel c).minMinutes
      (a.operating = 0 → cls c = .excluded) ∧
      (a.operating ≠ 0 → 1 ≤ least → least ≤ a.valid → ∃ raw, cls c = .valid raw ∧ Nearest a.sum a.valid raw) ∧
      (a.operating ≠ 0 → a.valid < least → cls c = .invalid)

/-! ## The Stack Monitor -/

/-- FEED_LINE_CHANGE: on an enabled stack the timer starts for the debounce time at the level opposite to the taken one
and is cancelled at the taken one; a disabled stack starts no timer; a line already at the level has not changed (assumption
23). DEBOUNCE_EXPIRY takes the opposite level: on to FIRING with the fired mark, off to OFF with the declaration dropped and
the open minute's marks kept; FEED is raised with the stack. Time has then reached the expiry (assumption 2). No request is in
hand. -/
def Obligations.FeedLineIsDebounced : Prop :=
  (∀ (i : StackNo) (level : Bool) (s : State), NoneInHand s →
     (s.feedLine i = level → exec (.feedLineChange i level) s = .next s) ∧
     (s.feedLine i ≠ level → (s.input i).enable = true → s.part ≠ .stopped →
       exec (.feedLineChange i level) s = .next { s with
         feedLines := put s.feedLines i level
         inputs := put s.inputs i { s.input i with
           timer := if level = (s.input i).takenOn then none else some (s.now + (s.input i).debounce) } }) ∧
     (s.feedLine i ≠ level → (s.input i).enable = false →
       exec (.feedLineChange i level) s = .next { s with feedLines := put s.feedLines i level })) ∧
  ∀ (i : StackNo) (s : State) (e : Nat), NoneInHand s → s.part ≠ .stopped → (s.input i).timer = some e →
    exec (.debounceExpiry i) s = .next { s with
      now := max s.now e
      events := s.events.record .feed i
      inputs := put s.inputs i
        (if (s.input i).takenOn then
          { s.input i with takenOn := false, state := .off, declaration := none, timer := none }
        else
          { s.input i with
            takenOn := true, state := .firing, timer := none, openMarks := ⟨true, (s.input i).openMarks.abnormal⟩ }) }

/-- SET_FEED_INPUT, DECLARE_ABNORMAL and END_ABNORMAL: their changes, returned values and refusals. -/
def Obligations.StackMonitorRequests : Prop :=
  (∀ (s : State) (p : Port) (r : Request) (i : StackNo) (enable : Bool) (d : Nat),
    Takes s .setFeedInput p r → r.target = i.1 → r.arg 1 = some (enable.toNat : Int) →
    r.arg 2 = some (d : Int) → 1 ≤ d → d ≤ 15 →
    let old := s.input i
    let new : StackInput :=
      if old.enable = true ∧ enable = false then
        { old with enable := false, debounce := d, timer := none, takenOn := false, state := .off, declaration := none }
      else if old.enable = false ∧ enable = true then
        { old with
          enable := true, debounce := d, timer := if s.feedLine i = old.takenOn then none else some (s.now + d) }
      else { old with enable := enable, debounce := d }
    exec .setFeedInput s =
      .next (doneAt .monitor p r [num i, num old.enable.toNat, num new.state.number] (s.setInput i new))) ∧
  (∀ (s : State) (p : Port) (r : Request) (i : StackNo), Takes s .declareAbnormal p r → r.target = i.1 →
    let stamp := if s.clock.state = .run then s.clock.position else ⟨0, 0, 0⟩
    ((s.input i).state = .firing → exec .declareAbnormal s = .next (doneAt .monitor p r [num i, stamp.word]
      (s.setInput i { s.input i with state := .abnormal, declaration := some stamp, openMarks := ⟨true, true⟩ }))) ∧
    ((s.input i).state ≠ .firing → exec .declareAbnormal s = .next (refusedAt .monitor p r .state s))) ∧
  (∀ (s : State) (p : Port) (r : Request) (i : StackNo), Takes s .endAbnormal p r → r.target = i.1 →
    (∀ stamp, (s.input i).state = .abnormal → (s.input i).declaration = some stamp →
      exec .endAbnormal s = .next (doneAt .monitor p r [num i, stamp.word] (s.setInput i { s.input i with
        state := .firing, declaration := none, openMarks := ⟨true, (s.input i).openMarks.abnormal⟩ }))) ∧
    ((s.input i).state ≠ .abnormal → exec .endAbnormal s = .next (refusedAt .monitor p r .state s)))

/-! ## Power -/

/-- SUPPLY_LOW and RSTN_LOW. The request in hand that was taken first is completed, and its owner takes no other; then the
next. Their order and that they are completed in the stop's first step are the model's choice (assumption 25). With none in
hand, a minute in grace is collected in RUN, S takes the position in RUN and HOLD, the clock enters STOPPED with its timers
idle, and the engine takes the queue head; during a stop only the input is noted.
PART_STOP ends the stop when the queue is empty; that it has no effect before is the model's choice (assumption 1).
SUPPLY_RESTORED and RSTN_HIGH note their inputs and do not end a stop. -/
def Obligations.StopBeginsAndEnds : Prop :=
  (∀ s : State, s.part = .running →
    (∀ (o : Owner) (rest : List Owner) (p : Port) (c : RequestCode) (r : Request), s.handOrder = o :: rest →
      inHand s o = some p → waitingAt s o p = some r → r.code = c.byte →
      let u := { s with part := .stopping }
      let t := { finish o (answer p r.code (performRequest c r u) u) with part := .running }
      exec .supplyLow s = exec .supplyLow t ∧ exec .rstnLow s = exec .rstnLow t) ∧
    ∀ t : State, NoneInHand s →
      ((∃ g, s.clock.state = .run ∧ s.clock.inGrace = some g ∧ t = graceCollected g { s with part := .stopping }) ∨
        ((s.clock.state = .run → s.clock.inGrace = none) ∧ t = { s with part := .stopping })) →
      let clock := { t.clock with
        state := .stopped
        saved := if s.clock.state = .run ∨ s.clock.state = .hold then some s.clock.position else s.clock.saved
        graceTimer := none
        supervision := none }
      exec .supplyLow s = .next (takeUp .engine { t with supplyGood := false, clock := clock }) ∧
      exec .rstnLow s = .next (takeUp .engine { t with rstnHigh := false, clock := clock })) ∧
  (∀ s : State,
    (s.part ≠ .running →
      exec .supplyLow s = .next { s with supplyGood := false } ∧ exec .rstnLow s = .next { s with rstnHigh := false }) ∧
    (s.part = .stopping → s.queue = [] → exec .partStop s = .next { s with part := .stopped }) ∧
    (s.queue ≠ [] → exec .partStop s = .next s) ∧
    exec .supplyRestored s = .next { s with supplyGood := true } ∧ exec .rstnHigh s = .next { s with rstnHigh := true })

/-- RESTART and POWER_ON: volatile state takes its reset value, non-volatile state and the pins stay; the restart waits for
supply and RSTN, and has no effect before (assumption 1). That POWER_ON acts alike in every phase of the part, a queue that
is not empty being lost, is the model's inference, and so is that POWER_ON with RSTN low waits for the restart, which is not
stated here (assumption 13). That MISO is not driven afterwards, also with CSN low, is assumption 11. -/
def Obligations.RestartResetsVolatileState : Prop :=
  ∀ s : State,
    let fresh : State := { s with
      part := .running
      clock := { s.clock with
        state := if s.clock.calendarSet then .hold else .unset
        source := .external, inGrace := none, graceTimer := none, supervision := none, reference := none }
      inputs := tabulate (fun i =>
        { enable := (s.input i).enable, debounce := (s.input i).debounce, takenOn := false, state := .off,
          declaration := none, openMarks := ⟨false, false⟩, frozen := none,
          timer := if (s.input i).enable = true ∧ s.feedLine i = true then some (s.now + (s.input i).debounce) else none })
      slots := State.reset.slots
      accumulators := State.reset.accumulators
      counts := State.reset.counts
      queue := []
      inFlight := none
      lastClaim := .none
      monitorHand := none
      clockHand := none
      handOrder := []
      portA := { State.reset.portA with csnLow := s.portA.csnLow }
      portB := { State.reset.portB with lineBreak := s.portB.lineBreak }
      events := State.reset.events }
    (s.part = .stopped → s.supplyGood = true → s.rstnHigh = true → exec .restart s = .next fresh) ∧
    (s.part ≠ .stopped ∨ s.supplyGood = false ∨ s.rstnHigh = false → exec .restart s = .next s) ∧
    (s.rstnHigh = true → exec .powerOn s = .next { fresh with supplyGood := true })

/-! ## Absorption -/

/-- A VALID result with the abnormal flag clear, in each case of its EXCEEDANCE episode. It enters the account that the slot it
names holds; that this is so for another account than the one linked at the close too is the model's choice (assumption
28). -/
def Obligations.ValidResultAbsorbed : Prop :=
  ∀ (s : State) (e : ResultEntry) (raw : Int) (c : CurrentSide), Absorbs s (.result e) → e.cls = .valid raw →
    e.abnormal = false → (s.account e.slot).current = some c →
    let a := s.account e.slot
    let v := (raw - a.terms.ci).toNat
    let c1 := internalNoted e (validSide a.terms v e.stamp c)
    let over_ := ∃ l ∈ a.terms.short, l < v
    let atOrBelow := ∃ l ∈ a.terms.short, v ≤ l
    (a.terms.short = none ∨ (atOrBelow ∧ openEpisode s (.exceedance e.slot) = none) →
      exec .resultAbsorption s = .next (headGone (s.setAccount e.slot (a.withSide c1)))) ∧
    (over_ → (openEpisode s (.exceedance e.slot)).isSome →
      exec .resultAbsorption s = .next (headGone { s.setAccount e.slot (a.withSide c1) with
        episodes := s.episodes.map (fun ep =>
          if ep.ended = none ∧ ep.subject = .exceedance e.slot then
            { ep with length := min 65535 (ep.length + 1), peak := ep.peak.map (max · v) }
          else ep) })) ∧
    (over_ → openEpisode s (.exceedance e.slot) = none → s.episodes.length < 32 →
      let n := freeNumber (s.episodes.map (·.number)) 31 s.episodeCounter
      exec .resultAbsorption s = .next (headGone { s.setAccount e.slot (a.withSide c1) with
        episodes := s.episodes ++ [⟨n, .exceedance e.slot, e.stamp, none, 1, some v, false, none⟩]
        episodeCounter := if n = 65535 then 1 else n + 1
        events := s.events.record .shortOpened n })) ∧
    (over_ → openEpisode s (.exceedance e.slot) = none → 32 ≤ s.episodes.length →
      exec .resultAbsorption s = .next (headGone { s.setAccount e.slot
          (a.withSide (internalNoted e ((validSide a.terms v e.stamp c).addMark .episodeUntracked))) with
        events := s.events.record .listFull e.slot })) ∧
    (∀ ep, atOrBelow → s.episodes.filter (fun x => x.isOpen && x.subject == .exceedance e.slot) = [ep] →
      ∃ t, exec .resultAbsorption s = .next t ∧
        t.account e.slot = a.withSide (internalNoted e { validSide a.terms v e.stamp c with
          year := { (validSide a.terms v e.stamp c).year with
            episodesEnded := c.year.episodesEnded + 1
            longestEpisode := max c.year.longestEpisode ep.length } }) ∧
        (∀ j, j ≠ e.slot → t.account j = s.account j) ∧
        t.episodes = s.episodes.filterMap (fun x =>
          if x.isOpen && x.subject == .exceedance e.slot then
            if x.acknowledged then none else some { x with ended := some e.stamp }
          else some x) ∧
        t = headGone { s with accounts := t.accounts, episodes := t.episodes })

/-- A RESULT that is VALID with the abnormal flag, INVALID, or EXCLUDED, which ends the account's OPEN episode; and one
whose account has no current side, which is removed uncounted (DESIGN CHOICE, assumption 18). The account is the one that the
slot holds, another than the one linked at the close too (DESIGN CHOICE, assumption 28). -/
def Obligations.OtherResultAbsorbed : Prop :=
  ∀ (s : State) (e : ResultEntry), Absorbs s (.result e) →
    let a := s.account e.slot
    (∀ raw c, e.cls = .valid raw → e.abnormal = true → a.current = some c →
      exec .resultAbsorption s = .next (headGone (s.setAccount e.slot (a.withSide (internalNoted e { c with
        day := { c.day with hhAbnormal := c.day.hhAbnormal + 1 }
        year := { c.year with hhAbnormal := c.year.hhAbnormal + 1 } }))))) ∧
    (∀ c, e.cls = .invalid → a.current = some c →
      exec .resultAbsorption s = .next (headGone (s.setAccount e.slot (a.withSide (internalNoted e { c with
        day := { c.day with hhInvalid := c.day.hhInvalid + 1 }
        year := { c.year with hhInvalid := c.year.hhInvalid + 1 } }))))) ∧
    (∀ c, e.cls = .excluded → openEpisode s (.exceedance e.slot) = none → a.current = some c →
      exec .resultAbsorption s = .next (headGone (s.setAccount e.slot (a.withSide (internalNoted e { c with
        day := { c.day with hhExcluded := c.day.hhExcluded + 1 }
        year := { c.year with hhExcluded := c.year.hhExcluded + 1 } }))))) ∧
    (∀ c ep, e.cls = .excluded → s.episodes.filter (fun x => x.isOpen && x.subject == .exceedance e.slot) = [ep] →
      a.current = some c →
      ∃ t, exec .resultAbsorption s = .next t ∧
        t.account e.slot = a.withSide (internalNoted e { c with
          day := { c.day with hhExcluded := c.day.hhExcluded + 1 }
          year := { c.year with
            hhExcluded := c.year.hhExcluded + 1
            episodesEnded := c.year.episodesEnded + 1
            longestEpisode := max c.year.longestEpisode ep.length } }) ∧
        (∀ j, j ≠ e.slot → t.account j = s.account j) ∧
        t.episodes = s.episodes.filterMap (fun x =>
          if x.isOpen && x.subject == .exceedance e.slot then
            if x.acknowledged then none else some { x with ended := some e.stamp }
          else some x) ∧
        t = headGone { s with accounts := t.accounts, episodes := t.episodes }) ∧
    (a.current = none → exec .resultAbsorption s = .next (headGone s))

/-- STACK_ENTRY_ABSORPTION: an entry with abnormal minutes counts, extends or opens the stack's episode with
ABNORMAL_OPENED, or raises LIST_FULL with 128 plus the stack, and sets the demand, with STOP on a rise; an entry without ends
the run and releases the demand. That year_abn_hh counts on beyond 17,568, and episodes this year beyond 8,784, the ends of
their ranges, is the model's choice (assumption 24). -/
def Obligations.StackEntryAbsorbed : Prop :=
  ∀ (s : State) (e : StackEntry), Absorbs s (.stack e) →
    let r := s.allowance e.stack
    ∃ t, exec .stackEntryAbsorption s = .next t ∧
      (∀ j, j ≠ e.stack → t.allowance j = s.allowance j) ∧
      (1 ≤ e.abnormal →
        let r1 := { r with runHh := min 65535 (r.runHh + 1), yearAbnHh := r.yearAbnHh + 1 }
        let d : StopDemand :=
          if r1.episodeAllowance ≤ r1.runHh then .episode
          else if r1.annualAllowance ≤ r1.yearAbnHh then .annual
          else .released
        let n := freeNumber (s.episodes.map (·.number)) 31 s.episodeCounter
        let thenStop := fun u : EventUnit => if r.demand = .released ∧ d ≠ .released then u.record .stop e.stack else u
        t.allowance e.stack = { r1 with
          demand := d
          exceeded := r.exceeded || d != .released
          last := some ⟨e.stamp, e.fired, e.abnormal⟩ } ∧
        ((openEpisode s (.abnormalOperation e.stack)).isSome →
          t.episodes = s.episodes.map (fun ep =>
            if ep.isOpen && ep.subject == .abnormalOperation e.stack then
              { ep with length := min 65535 (ep.length + 1) } else ep) ∧
          t.episodeCounter = s.episodeCounter ∧ t.events = thenStop s.events) ∧
        (openEpisode s (.abnormalOperation e.stack) = none → s.episodes.length < 32 →
          t.episodes = s.episodes ++ [⟨n, .abnormalOperation e.stack, e.stamp, none, 1, none, false, none⟩] ∧
          t.episodeCounter = (if n = 65535 then 1 else n + 1) ∧
          t.events = thenStop (s.events.record .abnormalOpened n)) ∧
        (openEpisode s (.abnormalOperation e.stack) = none → 32 ≤ s.episodes.length →
          t.episodes = s.episodes ∧ t.episodeCounter = s.episodeCounter ∧
          t.events = thenStop (s.events.record .listFull (128 + e.stack))) ∧
        t = headGone { s with
          allowances := t.allowances, episodes := t.episodes, episodeCounter := t.episodeCounter, events := t.events }) ∧
      (e.abnormal = 0 →
        t.allowance e.stack = { r with
          episodesYear := r.episodesYear + (if 1 ≤ r.runHh then 1 else 0)
          longestRun := if 1 ≤ r.runHh then max r.longestRun r.runHh else r.longestRun
          runHh := 0
          demand := .released
          last := some ⟨e.stamp, e.fired, e.abnormal⟩ } ∧
        t.episodes = s.episodes.filterMap (fun ep =>
          if ep.isOpen && ep.subject == .abnormalOperation e.stack then
            if ep.acknowledged then none else some { ep with ended := some e.stamp }
          else some ep) ∧
        t = headGone { s with allowances := t.allowances, episodes := t.episodes })

/-- The evaluation of a STOP demand: the table of conditions, allowance exceeded, and STOP on a rise only. -/
def Obligations.StopDemandFollowsEvaluation : Prop :=
  ∀ (i : StackNo) (s : State),
    let r := s.allowance i
    let t := evaluateStop i s
    let d := (t.allowance i).demand
    (r.episodeAllowance ≤ r.runHh → d = .episode) ∧
    (r.runHh < r.episodeAllowance → r.annualAllowance ≤ r.yearAbnHh → d = .annual) ∧
    (r.runHh < r.episodeAllowance → r.yearAbnHh < r.annualAllowance → d = .released) ∧
    (d ≠ .released → (t.allowance i).exceeded = true) ∧
    (d = .released → (t.allowance i).exceeded = r.exceeded) ∧
    t.allowance i = { r with demand := d, exceeded := (t.allowance i).exceeded } ∧
    (∀ j, j ≠ i → t.allowance j = s.allowance j) ∧
    (r.demand = .released → d ≠ .released → t.events = s.events.record .stop i) ∧
    (r.demand ≠ .released ∨ d = .released → t.events = s.events) ∧
    t = { s with allowances := t.allowances, events := t.events }

/-- DAY_END_ABSORPTION closes the day of exactly the accounts to which it applies, raises ALLOWANCE for each whose close
passes its allowance, the highest last, and then DAY_CLOSED. -/
def Obligations.DayEndClosesAccounts : Prop :=
  ∀ (s : State) (Y D : Nat), Absorbs s (.dayEnd Y D) →
    ∃ t, exec .dayEndAbsorption s = .next t ∧
      (∀ i c, (s.account i).current = some c → DayApplies (s.account i) c Y D →
        let a := s.account i
        let outcome := dayOutcome a.terms c.day
        t.account i = a.withSide
          { day := ⟨if D = daysInYear Y then 1 else D + 1, 0, 0, 0, 0, 0, 0, 0⟩
            year := yearAfterDay a.terms c.year D (dayAverage c.day) outcome
            marks := if outcome = .invalid ∧ c.year.daysInvalid = a.terms.allowance then c.marks.add .allowanceExceeded
              else c.marks }) ∧
      (∀ i, (∀ c, (s.account i).current = some c → ¬ DayApplies (s.account i) c Y D) → t.account i = s.account i) ∧
      RaisedForSlots s.events t.events 10 (fun i => ∃ c, (s.account i).current = some c ∧
        DayApplies (s.account i) c Y D ∧ dayOutcome (s.account i).terms c.day = .invalid ∧
        c.year.daysInvalid = (s.account i).terms.allowance) ∧
      t.events.sources.get 6 = (s.events.record .dayClosed D).sources.get 6 ∧
      (∀ n, n ≠ 6 → n ≠ 10 → t.events.sources.get n = s.events.sources.get n) ∧
      t = headGone { s with accounts := t.accounts, events := { s.events with sources := t.events.sources } }

/-- YEAR_END_ABSORPTION: every OPEN EXCEEDANCE episode ends at half-hour 47 of the last day and is folded into its account
first; exactly the accounts to which the entry applies are closed, with PRIOR_UNCERTIFIED for each HELD closed side
overwritten, the highest last; all four stacks' figures move; and YEAR_CLOSED carries the number of accounts closed. -/
def Obligations.YearEndClosesAccounts : Prop :=
  ∀ (s : State) (Y : Nat), Absorbs s (.yearEnd Y) →
    let eps := fun i : SlotNo => s.episodes.filter (fun e => e.isOpen && e.subject == .exceedance i)
    ∃ t, exec .yearEndAbsorption s = .next t ∧
      (∀ i c, (s.account i).current = some c → YearApplies (s.account i) Y →
        let a := s.account i
        let year := (foldedSide (eps i) c).year
        let side : ClosedSide :=
          { yearNo := Y, year := year
            marks := if a.closed.isSome then c.marks.add .priorUncertified else c.marks
            verdict := verdictOf a.terms year }
        (a.state = .active → t.account i =
          { a with closed := some side, current := some ⟨⟨1, 0, 0, 0, 0, 0, 0, 0⟩, YearPart.empty, 0⟩ }) ∧
        (a.state = .frozen → t.account i = { a with closed := some side, state := .lapsed, current := none })) ∧
      (∀ i, ¬ YearApplies (s.account i) Y →
        t.account i = { s.account i with current := (s.account i).current.map (foldedSide (eps i)) }) ∧
      t.episodes = s.episodes.filterMap (fun e =>
        if e.isOpen && e.subject.kind == 0 then
          if e.acknowledged then none else some { e with ended := some ⟨Y, daysInYear Y, 47⟩ }
        else some e) ∧
      (∀ i, t.allowance i = { s.allowance i with
        previous := ⟨(s.allowance i).yearAbnHh, (s.allowance i).episodesYear, (s.allowance i).longestRun,
          (s.allowance i).exceeded⟩
        yearAbnHh := 0, episodesYear := 0, longestRun := 0, exceeded := false }) ∧
      RaisedForSlots s.events t.events 7 (fun i => YearApplies (s.account i) Y ∧ (s.account i).closed.isSome) ∧
      (∃ closed : List SlotNo, closed.Nodup ∧ (∀ i, i ∈ closed ↔ YearApplies (s.account i) Y) ∧
        t.events.sources.get 8 = (s.events.record .yearClosed closed.length).sources.get 8) ∧
      (∀ n, n ≠ 7 → n ≠ 8 → t.events.sources.get n = s.events.sources.get n) ∧
      t = headGone { s with
        accounts := t.accounts, allowances := t.allowances, episodes := t.episodes
        events := { s.events with sources := t.events.sources } }

/-- The two figures, the day outcome and the day average of a day part; and the four findings of a verdict. -/
def Obligations.DayOutcomeAndVerdict : Prop :=
  (∀ (t : Terms) (d : DayPart),
    let operating := d.hhValid + d.hhInvalid + d.hhAbnormal + d.hhGap
    let bad := d.hhInvalid + d.hhGap
    (operating = 0 → dayOutcome t d = .excluded) ∧
    (operating ≠ 0 → t.maxInvalid < bad ∨ (d.hhValid = 0 ∧ d.hhAbnormal = 0) → dayOutcome t d = .invalid) ∧
    (operating ≠ 0 → bad ≤ t.maxInvalid → ¬ (d.hhValid = 0 ∧ d.hhAbnormal = 0) → d.hhValid = 0 →
      dayOutcome t d = .abnormalOnly) ∧
    (operating ≠ 0 → bad ≤ t.maxInvalid → d.hhValid ≠ 0 → dayOutcome t d = .valid) ∧
    (d.hhValid ≠ 0 →
      2 * d.sum < (2 * dayAverage d + 1) * d.hhValid ∧ (2 * dayAverage d) * d.hhValid ≤ 2 * d.sum + d.hhValid)) ∧
  ∀ (t : Terms) (y : YearPart),
    ((verdictOf t y).shortMet = true ↔ t.short = none ∨ y.hhOverShort = 0) ∧
    ((verdictOf t y).pctMet = true ↔ ∀ l ∈ t.pct, y.hhOverPct * 1000 ≤ l.share * y.hhValid) ∧
    ((verdictOf t y).dayMet = true ↔ t.day = none ∨ y.daysOver = 0) ∧
    ((verdictOf t y).availabilityMet = true ↔ y.daysInvalid ≤ t.allowance)

/-- GAP_WALK of a gap that covers no half-hour 47: every charged ACTIVE or FROZEN account gets its half-hours, and nothing
else changes. -/
def Obligations.GapWalkCharges : Prop :=
  ∀ (s : State) (g : GapEntry), Absorbs s (.gap g) → g.charged.Nodup → 1 ≤ g.count →
    g.start.hh + g.count ≤ 47 →
    ∃ t, exec .gapWalk s = .next t ∧
      (∀ i ∈ g.charged, ∀ c, (s.account i).current = some c →
        (s.account i).state = .active ∨ (s.account i).state = .frozen →
        t.account i = (s.account i).withSide { c with
          day := { c.day with hhGap := c.day.hhGap + g.count }
          year := { c.year with hhGap := c.year.hhGap + g.count }
          marks := c.marks.add .gapCharged }) ∧
      (∀ i, i ∉ g.charged → t.account i = s.account i) ∧
      (∀ i, (s.account i).state ≠ .active → (s.account i).state ≠ .frozen → t.account i = s.account i) ∧
      t = headGone { s with accounts := t.accounts }

/-- GAP_WALK goes through the covered half-hours one by one in calendar order: each is charged to every ACTIVE or FROZEN
account of the charged set; behind a half-hour 47 the day is closed, and behind the last of a year the year, by the same
closes that DAY_END_ABSORPTION and YEAR_END_ABSORPTION make. -/
def Obligations.GapWalkMakesCloses : Prop :=
  (∀ (s : State) (g : GapEntry), Absorbs s (.gap g) →
    exec .gapWalk s = .next (headGone (walkGap g.charged g.count g.start s))) ∧
  (∀ (s : State) (Y D : Nat), Absorbs s (.dayEnd Y D) →
    exec .dayEndAbsorption s = .next (headGone (closeDay Y D s))) ∧
  (∀ (s : State) (Y : Nat), Absorbs s (.yearEnd Y) →
    exec .yearEndAbsorption s = .next (headGone (closeYear Y s))) ∧
  ∀ (charged : List SlotNo) (n : Nat) (x : HalfHourStamp) (s : State), charged.Nodup →
    walkGap charged 0 x s = s ∧
    ∃ t : State,
      (∀ i ∈ charged, ∀ c, (s.account i).current = some c → (s.account i).state = .active ∨ (s.account i).state = .frozen →
        t.account i = (s.account i).withSide { c with
          day := { c.day with hhGap := c.day.hhGap + 1 }
          year := { c.year with hhGap := c.year.hhGap + 1 }
          marks := c.marks.add .gapCharged }) ∧
      (∀ i, i ∉ charged ∨ (s.account i).state ≠ .active ∧ (s.account i).state ≠ .frozen → t.account i = s.account i) ∧
      t = { s with accounts := t.accounts } ∧
      (x.hh < 47 → walkGap charged (n + 1) x s = walkGap charged n ⟨x.year, x.day, x.hh + 1⟩ t) ∧
      (x.hh = 47 → x.day < daysInYear x.year →
        walkGap charged (n + 1) x s = walkGap charged n ⟨x.year, x.day + 1, 0⟩ (closeDay x.year x.day t)) ∧
      (x.hh = 47 → x.day = daysInYear x.year →
        walkGap charged (n + 1) x s =
          walkGap charged n ⟨x.year + 1, 1, 0⟩ (closeYear x.year (closeDay x.year x.day t)))

/-! ## Requests -/

/-- What an owner takes: a claim or request in hand stays; an engine with none chooses between the queue head and a waiting
request by its last claim, port B before port A; the Stack Monitor and the Period Clock choose port B before port A; once
the stop has begun only queue heads are taken. A request row is taken exactly when its owner's next port has its code
waiting, and an owner that finishes a request takes the next. The order of taking names the owner that takes a request last,
and no longer names one that has finished. -/
def Obligations.OwnersChooseInOrder : Prop :=
  (∀ (s : State) (c : Claim), s.inFlight = some c → nextClaim s = some c) ∧
  (∀ s : State, s.inFlight = none →
    (s.part = .running →
      (s.lastClaim ≠ .entry → s.queue ≠ [] → nextClaim s = some .entry) ∧
      (s.lastClaim = .entry → (waitingAt s .engine .b).isSome → nextClaim s = some (.request .b)) ∧
      (s.lastClaim = .entry → waitingAt s .engine .b = none → (waitingAt s .engine .a).isSome →
        nextClaim s = some (.request .a)) ∧
      (waitingAt s .engine .b = none → waitingAt s .engine .a = none → s.queue ≠ [] → nextClaim s = some .entry) ∧
      (s.queue = [] → (waitingAt s .engine .b).isSome → nextClaim s = some (.request .b)) ∧
      (s.queue = [] → waitingAt s .engine .b = none → (waitingAt s .engine .a).isSome →
        nextClaim s = some (.request .a)) ∧
      (s.queue = [] → waitingAt s .engine .b = none → waitingAt s .engine .a = none → nextClaim s = none)) ∧
    (s.part = .stopping → s.queue ≠ [] → nextClaim s = some .entry) ∧
    (s.part = .stopping → s.queue = [] → nextClaim s = none) ∧
    (s.part = .stopped → nextClaim s = none)) ∧
  (∀ (s : State) (p : Port), nextPort s .engine = some p ↔ nextClaim s = some (.request p)) ∧
  (∀ (s : State) (o : Owner), o ≠ .engine →
    (∀ p, inHand s o = some p → nextPort s o = some p) ∧
    (inHand s o = none →
      (s.part = .running → (waitingAt s o .b).isSome → nextPort s o = some .b) ∧
      (s.part = .running → waitingAt s o .b = none → (waitingAt s o .a).isSome → nextPort s o = some .a) ∧
      (waitingAt s o .b = none → waitingAt s o .a = none → nextPort s o = none) ∧
      (s.part ≠ .running → nextPort s o = none))) ∧
  (∀ (s : State) (o : Owner) (p : Port) (r : Request),
    waitingAt s o p = some r ↔ (s.common p).area.state = .pending ∧ (s.common p).area.latched = some r ∧
      ∃ c, RequestCode.ofByte r.code = some c ∧ c.owner = o) ∧
  (∀ (s : State) (c : RequestCode) (p : Port) (r : Request),
    takenRequest s c = some (p, r) ↔ nextPort s c.owner = some p ∧ (s.common p).area.state = .pending ∧
      (s.common p).area.latched = some r ∧ r.code = c.byte) ∧
  ∀ s : State,
    (∀ p, inHand s .engine = some p ↔ s.inFlight = some (.request p)) ∧
    inHand s .monitor = s.monitorHand ∧ inHand s .clock = s.clockHand ∧
    (∀ o,
      let order := if inHand s o = none ∧ (nextPort s o).isSome then s.handOrder ++ [o] else s.handOrder
      takeUp o s = { s with
        inFlight := if o = .engine then nextClaim s else s.inFlight
        monitorHand := if o = .monitor then nextPort s .monitor else s.monitorHand
        clockHand := if o = .clock then nextPort s .clock else s.clockHand
        handOrder := order }) ∧
    let others := fun o : Owner => s.handOrder.filter (· != o)
    finish .engine s =
      takeUp .engine { s with inFlight := none, lastClaim := .request, handOrder := others .engine } ∧
    finish .monitor s = takeUp .monitor { s with monitorHand := none, handOrder := others .monitor } ∧
    finish .clock s = takeUp .clock { s with clockHand := none, handOrder := others .clock }

/-- What was taken before comes first. A request row performs its request by `performRequest`. An event of the Period Clock
or of the Stack Monitor, and HAND_OVER, act as on the state behind the request in hand that was taken first, and so on
through all that is in hand. A request row whose owner has it in hand, and an absorption, act as on the state behind the first
request in hand at another owner that was taken before and crosses owners. So no request's outcome is changed by what comes
after it was taken. That it is also completed by then is the model's choice (assumption 25). -/
def Obligations.RequestsInHandComeFirst : Prop :=
  (∀ (s : State) (c : RequestCode) (p : Port) (r : Request), Takes s c p r →
    exec (requestRow c) s = .next (finish c.owner (answer p r.code (performRequest c r s) s))) ∧
  (∀ (s : State) (o : Owner) (rest : List Owner) (p : Port) (c : RequestCode) (r : Request),
    s.handOrder = o :: rest → inHand s o = some p → waitingAt s o p = some r → r.code = c.byte →
    let t := finish o (answer p r.code (performRequest c r s) s)
    exec .minpPulse s = exec .minpPulse t ∧ exec .supervisionExpiry s = exec .supervisionExpiry t ∧
    exec .graceExpiry s = exec .graceExpiry t ∧
    (∀ i level, exec (.feedLineChange i level) s = exec (.feedLineChange i level) t) ∧
    (∀ i, exec (.debounceExpiry i) s = exec (.debounceExpiry i) t) ∧
    (∀ v, exec (.handOver v) s = exec (.handOver v) t)) ∧
  ∀ (s : State) (before rest : List Owner) (o : Owner) (p : Port) (c : RequestCode) (r : Request), HandLaw s →
    s.handOrder = before ++ o :: rest →
    (∀ x ∈ before, ∀ p' c' r', inHand s x = some p' → waitingAt s x p' = some r' → r'.code = RequestCode.byte c' →
      c'.crossesOwners = false) →
    inHand s o = some p → waitingAt s o p = some r → r.code = c.byte → c.crossesOwners = true →
    let t := finish o (answer p r.code (performRequest c r s) s)
    (∀ d p' r', d.owner ∉ before → d.owner ≠ o → inHand s d.owner = some p' → takenRequest s d = some (p', r') →
      exec (requestRow d) s = exec (requestRow d) t) ∧
    ∀ e, s.inFlight = some .entry → s.queue.head? = some e → exec (absorptionRow e) s = exec (absorptionRow e) t

/-- GO on either port: a PENDING area only gets its busy indication; an IDLE or DONE area latches the block, field by field,
with the effective level, and is handed to the owner, which takes it when idle, or refused by the port's three checks in
order; during a stop it is not taken. The 27 codes, their owners and their required levels are those of the table of R166,
and every other code is unknown. -/
def Obligations.GoLatchesRequest : Prop :=
  (∀ b code owner level, (b, code, owner, level) ∈ requestTable →
    RequestCode.ofByte (BitVec.ofNat 8 b) = some code ∧ code.byte = BitVec.ofNat 8 b ∧ code.owner = owner ∧
      code.requiredLevel = level) ∧
  (∀ v : Byte, (∀ row ∈ requestTable, row.1 ≠ v.toNat) → RequestCode.ofByte v = none) ∧
  ∀ (p : Port) (v : Byte) (s : State), Writes p 0x2F s →
    let t := afterByte p 0x2F s
    let c := t.common p
    let r := latch p c.block
    let byteAt := fun loc : Nat => blockByte c.block (loc - 0x10)
    (s.part = .running → c.area.state = .pending →
      exec (.go p v) s = .next (t.setCommon p { c with area := { c.area with busy := true } })) ∧
    (∀ code, s.part = .running → c.area.state ≠ .pending → RequestCode.ofByte r.code = some code →
      r.requestedLevel ≠ 3 → r.level ≤ code.requiredLevel →
      exec (.go p v) s = .next (takeUp code.owner (t.setCommon p { c with
        area := { c.area with state := .pending, busy := false, latched := some r } }))) ∧
    (∀ o, s.part = .running → c.area.state ≠ .pending →
      (RequestCode.ofByte r.code = none ∧ o = .unknown ∨
       (∃ code, RequestCode.ofByte r.code = some code ∧
        (r.requestedLevel = 3 ∧ o = .argument ∨
         r.requestedLevel ≠ 3 ∧ code.requiredLevel < r.level ∧ o = .level))) →
      exec (.go p v) s = .next (complete p r.code o []
        (t.setCommon p { c with area := { c.area with latched := some r } }))) ∧
    (s.part ≠ .running → exec (.go p v) s = .next t) ∧
    r.code = byteAt 0x10 ∧ r.requestedLevel = (byteAt 0x11).toNat % 4 ∧
    r.level = max r.requestedLevel (if p = .a then 1 else 0) ∧ r.target = (byteAt 0x12).toNat ∧
    r.stack = (byteAt 0x13).toNat / 16 ∧ r.substance = (byteAt 0x13).toNat % 16 ∧ r.edition = (byteAt 0x14).toNat ∧
    r.expected = (if (byteAt 0x11).getLsbD 7 then some (byteAt 0x16 ++ byteAt 0x15) else none) ∧
    ∀ i : Fin 6, r.args.get i =
      (byteAt (0x1A + 4 * i.1) ++ byteAt (0x19 + 4 * i.1)) ++ (byteAt (0x18 + 4 * i.1) ++ byteAt (0x17 + 4 * i.1))

/-- Completion of a request: the area becomes DONE with the whole response and busy clear, the port's completion event is
raised with the code answered, and nothing else changes; so a refusal at the engine or at another owner is the whole of a
refused request's effect. -/
def Obligations.CompletionFillsResponse : Prop :=
  (∀ (p : Port) (code : Byte) (o : ReqOutcome) (vals : List Word32) (s : State),
    complete p code o vals s =
      { s.setCommon p { s.common p with
          area := { (s.common p).area with
            state := .done, busy := false, response := ⟨some o, code, padValues vals⟩ } } with
        events := s.events.record (if p = .a then .requestDone else .inspection) code.toNat }) ∧
  ∀ (c : RequestCode) (perform : Request → State → Reply) (s : State) (p : Port) (r : Request) (o : ReqOutcome),
    Takes s c p r → perform r s = .refused o →
    runRequest c perform s =
      .next (refusedAt c.owner p r o s)

/-- CREATE_ACCOUNT fills the lowest FREE slot with a DRAFT account of the key; a bad key, a key in use and a full table are
refused. -/
def Obligations.CreateAccountFillsLowestFree : Prop :=
  ∀ (s : State) (p : Port) (r : Request), Takes s .createAccount p r →
    (3 < r.stack ∨ 14 < r.substance ∨ 255 < r.edition → exec .createAccount s = .next (refusedAt .engine p r .argument s)) ∧
    ∀ k : Key, r.stack = k.stack.1 → r.substance = k.substance.1 → r.edition = k.edition.1 → r.substance ≤ 14 →
      ((∃ i, (s.account i).state ≠ .free ∧ (s.account i).key = k) →
        exec .createAccount s = .next (refusedAt .engine p r .keyTaken s)) ∧
      ((∀ i, (s.account i).state ≠ .free → (s.account i).key ≠ k) → (∀ i, (s.account i).state ≠ .free) →
        exec .createAccount s = .next (refusedAt .engine p r .noSpace s)) ∧
      (∀ i, (∀ j, (s.account j).state ≠ .free → (s.account j).key ≠ k) → (s.account i).state = .free →
        (∀ j, j < i → (s.account j).state ≠ .free) →
        exec .createAccount s = .next (doneAt .engine p r [num i, 0] (s.setAccount i
          { state := .draft, key := k, source := none, terms := ⟨none, none, none, 0, 5, 10⟩, cfgRev := 0,
            activatedAt := none, frozenAt := none, current := none, closed := none })))

/-- SET_LIMITS, LINK_SOURCE and DELETE_DRAFT on a DRAFT account, and their STATE refusals; and the common checks of R16 for the
eight requests that name an account and for MARK: ARGUMENT for a target above 127, STALE for another cfg_rev than the
account's. That an argument absent where SET_LIMITS needs a value comes behind STATE is the model's choice (assumption
27). -/
def Obligations.DraftRequests : Prop :=
  (∀ (s : State) (p : Port) (r : Request) (i : SlotNo) (t : Terms), Takes s .setLimits p r →
    NamesAccount r s i → (s.account i).state = .draft →
    r.arg 1 = t.short.map Int.ofNat → (∀ l ∈ t.short, l ≤ 268435455) →
    r.arg 2 = t.pct.map (fun l => Int.ofNat l.limit) → r.arg 3 = t.pct.map (fun l => Int.ofNat l.share) →
    (∀ l ∈ t.pct, l.limit ≤ 268435455 ∧ l.share ≤ 1000) →
    r.arg 4 = t.day.map Int.ofNat → (∀ l ∈ t.day, l ≤ 268435455) → r.arg 5 = some (t.ci : Int) → t.ci ≤ 65535 →
    r.word 6 = BitVec.ofNat 32 (t.maxInvalid + 65536 * t.allowance) → t.maxInvalid ≤ 48 → t.allowance ≤ 366 →
    exec .setLimits s = .next (doneAt .engine p r [((s.account i).cfgRev + 1).setWidth 32]
      (s.setAccount i { s.account i with terms := t, cfgRev := (s.account i).cfgRev + 1 }))) ∧
  (∀ (s : State) (p : Port) (r : Request) (i : SlotNo), Takes s .linkSource p r →
    NamesAccount r s i → (s.account i).state = .draft →
    let a := s.account i
    let values := [(a.cfgRev + 1).setWidth 32, numOr (a.source.map Fin.val)]
    (r.arg 1 = none → exec .linkSource s = .next (doneAt .engine p r values
      (s.setAccount i { a with source := none, cfgRev := a.cfgRev + 1 }))) ∧
    (∀ c : ChannelNo, r.arg 1 = some (c.1 : Int) → fits (s.channel c) a = true →
      exec .linkSource s = .next (doneAt .engine p r values
        (s.setAccount i { a with source := some c, cfgRev := a.cfgRev + 1 }))) ∧
    (∀ c : ChannelNo, r.arg 1 = some (c.1 : Int) → fits (s.channel c) a = false →
      exec .linkSource s = .next (refusedAt .engine p r .argument s))) ∧
  (∀ (s : State) (p : Port) (r : Request) (i : SlotNo), Takes s .deleteDraft p r →
    NamesAccount r s i → (s.account i).state = .draft →
    exec .deleteDraft s = .next (doneAt .engine p r [num i] (s.setAccount i (State.reset.account i)))) ∧
  (∀ (s : State) (p : Port) (r : Request) (i : SlotNo), NamesAccount r s i → (s.account i).state ≠ .draft →
    (Takes s .setLimits p r → exec .setLimits s = .next (refusedAt .engine p r .state s)) ∧
    (Takes s .linkSource p r → exec .linkSource s = .next (refusedAt .engine p r .state s)) ∧
    (Takes s .deleteDraft p r → exec .deleteDraft s = .next (refusedAt .engine p r .state s))) ∧
  ∀ (s : State) (p : Port) (r : Request) (c : RequestCode),
    c ∈ [RequestCode.setLimits, .linkSource, .activate, .amend, .reassign, .retire, .deleteDraft, .certify, .mark] →
    Takes s c p r →
    (127 < r.target → exec (requestRow c) s = .next (refusedAt .engine p r .argument s)) ∧
    ∀ (i : SlotNo) (e : Word16), r.target = i.1 → r.expected = some e → e ≠ (s.account i).cfgRev →
      exec (requestRow c) s = .next (refusedAt .engine p r .stale s)

/-- ACTIVATE brings a DRAFT account into service on its unlinked source channel at the pending half-hour; a linked channel is
IN_USE, a clock outside RUN CLOCK_HELD, a waiting gap BACKLOG; an account that is not DRAFT is refused with STATE, one with
no source channel or one that does not fit it with ARGUMENT. -/
def Obligations.ActivateBringsIntoService : Prop :=
  (∀ (s : State) (p : Port) (r : Request) (i : SlotNo), Takes s .activate p r → NamesAccount r s i →
    ((s.account i).state ≠ .draft → exec .activate s = .next (refusedAt .engine p r .state s)) ∧
    ((s.account i).state = .draft → (s.account i).source = none →
      exec .activate s = .next (refusedAt .engine p r .argument s)) ∧
    ∀ c, (s.account i).state = .draft → (s.account i).source = some c → fits (s.channel c) (s.account i) = false →
      exec .activate s = .next (refusedAt .engine p r .argument s)) ∧
  ∀ (s : State) (p : Port) (r : Request) (i : SlotNo) (c : ChannelNo), Takes s .activate p r →
    NamesAccount r s i → (s.account i).state = .draft → (s.account i).source = some c →
    fits (s.channel c) (s.account i) = true →
    let a := s.account i
    let h := pendingHalfHour s.clock
    let noOther := ∀ j, j ≠ i → (s.account j).state = .active → (s.account j).key.stack = a.key.stack →
      (s.account j).key.substance ≠ a.key.substance
    ((s.channel c).link = none → noOther → LinksMayChange s →
      exec .activate s = .next (doneAt .engine p r [(a.cfgRev + 1).setWidth 32, num c, h.word]
        ((s.setAccount i { a with
          state := .active, activatedAt := some h, cfgRev := a.cfgRev + 1
          current := some ⟨⟨h.day, 0, 0, 0, 0, 0, 0, 0⟩, YearPart.empty, 0⟩ }).setLink c (some i)))) ∧
    ((s.channel c).link ≠ none ∨ ¬ noOther → exec .activate s = .next (refusedAt .engine p r .inUse s)) ∧
    ((s.channel c).link = none → noOther → s.clock.state ≠ .run →
      exec .activate s = .next (refusedAt .engine p r .clockHeld s)) ∧
    ((s.channel c).link = none → noOther → s.clock.state = .run → gapWaiting s = true →
      exec .activate s = .next (refusedAt .engine p r .backlog s))

/-- AMEND freezes the target, brings its successor into service with PERMIT_AMENDED, and moves the link; and its refusals in
order: ARGUMENT for the successor's index, STATE for either account, ARGUMENT for a successor that does not succeed,
CLOCK_HELD, BACKLOG. That an absent index is refused at the first of these is the model's choice (assumption 27). -/
def Obligations.AmendHandsChannelOver : Prop :=
  (∀ (s : State) (p : Port) (r : Request) (i : SlotNo), Takes s .amend p r → NamesAccount r s i →
    let refused := fun o => exec .amend s = .next (refusedAt .engine p r o s)
    ((∀ j : SlotNo, j ≠ i → r.arg 1 ≠ some (j.1 : Int)) → refused .argument) ∧
    ∀ j : SlotNo, r.arg 1 = some (j.1 : Int) → j ≠ i →
      let a := s.account i
      let b := s.account j
      let succeeds_ := b.key.stack = a.key.stack ∧ b.key.substance = a.key.substance ∧ a.key.edition < b.key.edition ∧
        b.source = none
      (a.state ≠ .active ∨ b.state ≠ .draft → refused .state) ∧
      (a.state = .active → b.state = .draft → ¬ succeeds_ → refused .argument) ∧
      (a.state = .active → b.state = .draft → succeeds_ → s.clock.state ≠ .run → refused .clockHeld) ∧
      (a.state = .active → b.state = .draft → succeeds_ → s.clock.state = .run → gapWaiting s = true →
        refused .backlog)) ∧
  ∀ (s : State) (p : Port) (r : Request) (i j : SlotNo) (c : ChannelNo), Takes s .amend p r →
    NamesAccount r s i → r.arg 1 = some (j.1 : Int) → j ≠ i →
    (s.account i).state = .active → (s.account i).source = some c → (s.account j).state = .draft →
    (s.account j).key.stack = (s.account i).key.stack → (s.account j).key.substance = (s.account i).key.substance →
    (s.account i).key.edition < (s.account j).key.edition → (s.account j).source = none → LinksMayChange s →
    let a := s.account i
    let b := s.account j
    let h := pendingHalfHour s.clock
    exec .amend s = .next (doneAt .engine p r
      [(a.cfgRev + 1).setWidth 32, (b.cfgRev + 1).setWidth 32, num c, h.word]
      (((s.setAccount i { a with state := .frozen, frozenAt := some h, cfgRev := a.cfgRev + 1 }).setAccount j
        { b with
          state := .active, source := some c, activatedAt := some h, cfgRev := b.cfgRev + 1
          current := some ⟨⟨h.day, 0, 0, 0, 0, 0, 0, 0⟩, YearPart.empty, Mark.permitAmended.bit⟩ }).setLink c (some j)))

/-- REASSIGN moves an ACTIVE account to an unlinked channel that fits, with ANALYZER_CHANGED; RETIRE freezes an ACTIVE
account and clears its link; and their refusals in order: of REASSIGN, ARGUMENT for the channel's number, STATE, ARGUMENT for
a channel that does not fit, IN_USE, CLOCK_HELD, BACKLOG; of RETIRE, STATE, CLOCK_HELD, BACKLOG. That an absent number is
refused at the first of these is the model's choice (assumption 27). -/
def Obligations.ReassignAndRetire : Prop :=
  (∀ (s : State) (p : Port) (r : Request) (i : SlotNo), Takes s .reassign p r → NamesAccount r s i →
    let refused := fun o => exec .reassign s = .next (refusedAt .engine p r o s)
    ((∀ c : ChannelNo, r.arg 1 ≠ some (c.1 : Int)) → refused .argument) ∧
    ∀ c : ChannelNo, r.arg 1 = some (c.1 : Int) →
      let ch := s.channel c
      let active := (s.account i).state = .active
      let fits_ := ch.state ≠ .unused ∧ ch.stack = (s.account i).key.stack ∧ ch.substance = (s.account i).key.substance
      (¬ active → refused .state) ∧ (active → ¬ fits_ → refused .argument) ∧
      (active → fits_ → ch.link ≠ none → refused .inUse) ∧
      (active → fits_ → ch.link = none → s.clock.state ≠ .run → refused .clockHeld) ∧
      (active → fits_ → ch.link = none → s.clock.state = .run → gapWaiting s = true → refused .backlog)) ∧
  (∀ (s : State) (p : Port) (r : Request) (i : SlotNo), Takes s .retire p r → NamesAccount r s i →
    let refused := fun o => exec .retire s = .next (refusedAt .engine p r o s)
    let active := (s.account i).state = .active
    (¬ active → refused .state) ∧ (active → s.clock.state ≠ .run → refused .clockHeld) ∧
    (active → s.clock.state = .run → gapWaiting s = true → refused .backlog)) ∧
  (∀ (s : State) (p : Port) (r : Request) (i : SlotNo) (old c : ChannelNo) (side : CurrentSide),
    Takes s .reassign p r → NamesAccount r s i → r.arg 1 = some (c.1 : Int) →
    (s.account i).state = .active → (s.account i).source = some old → (s.account i).current = some side →
    fits (s.channel c) (s.account i) = true → (s.channel c).link = none → LinksMayChange s →
    let a := s.account i
    exec .reassign s = .next (doneAt .engine p r
      [(a.cfgRev + 1).setWidth 32, num old, num c, (pendingHalfHour s.clock).word]
      (((s.setAccount i { a with
        source := some c, cfgRev := a.cfgRev + 1
        current := some { side with marks := side.marks.add .analyzerChanged } }).setLink old none).setLink c (some i)))) ∧
  (∀ (s : State) (p : Port) (r : Request) (i : SlotNo) (c : ChannelNo), Takes s .retire p r →
    NamesAccount r s i → (s.account i).state = .active → (s.account i).source = some c → LinksMayChange s →
    let a := s.account i
    let h := pendingHalfHour s.clock
    exec .retire s = .next (doneAt .engine p r [(a.cfgRev + 1).setWidth 32, num c, h.word]
      ((s.setAccount i { a with state := .frozen, frozenAt := some h, cfgRev := a.cfgRev + 1 }).setLink c none)))

/-- CERTIFY empties a HELD closed side; a LAPSED account becomes FREE and its EXCEEDANCE episodes leave the list. An EMPTY
closed side is refused with STATE. -/
def Obligations.CertifyEmptiesClosedSide : Prop :=
  ∀ (s : State) (p : Port) (r : Request) (i : SlotNo), Takes s .certify p r → NamesAccount r s i →
    let a := s.account i
    (∀ c, a.closed = some c → a.state ≠ .lapsed →
      exec .certify s = .next (doneAt .engine p r [num c.yearNo, num a.state.number, 0]
        (s.setAccount i { a with closed := none }))) ∧
    (∀ c, a.closed = some c → a.state = .lapsed →
      exec .certify s = .next (doneAt .engine p r
        [num c.yearNo, 0, num (s.episodes.filter (fun e => e.subject == .exceedance i)).length]
        { s.setAccount i (State.reset.account i) with
          episodes := s.episodes.filter (fun e => e.subject != .exceedance i) })) ∧
    (a.closed = none → exec .certify s = .next (refusedAt .engine p r .state s))

/-- MARK: each selected plant mark after SET, CLEAR, TOGGLE and REPLACE, the marks outside the selection, cfg_rev, the
returned sets, the level condition, and the refusals with STATE and ARGUMENT. That bits 10 to 31 of the returned sets are zero
is the model's inference (assumption 7), and that an absent function is refused behind STATE and before LEVEL is its choice
(assumption 27). -/
def Obligations.MarkActsOnSelection : Prop :=
  (∀ (s : State) (p : Port) (r : Request) (i : SlotNo), Takes s .mark p r → NamesAccount r s i →
    ((s.account i).state ≠ .active → (s.account i).state ≠ .frozen →
      exec .mark s = .next (refusedAt .engine p r .state s)) ∧
    ((s.account i).state = .active ∨ (s.account i).state = .frozen → (s.account i).current.isSome →
      ((∀ f : Fin 4, r.arg 1 ≠ some (f.1 : Int)) ∨ r.word 2 = 0 ∨ plantMarksOnly (r.word 2) = false ∨
        r.arg 1 = some 3 ∧ plantMarksOnly (r.word 3) = false) →
      exec .mark s = .next (refusedAt .engine p r .argument s))) ∧
  ∀ (s : State) (p : Port) (r : Request) (i : SlotNo) (c : CurrentSide) (f : Fin 4), Takes s .mark p r →
    NamesAccount r s i → (s.account i).state = .active ∨ (s.account i).state = .frozen →
    (s.account i).current = some c → r.arg 1 = some (f.1 : Int) → r.word 2 ≠ 0 → plantMarksOnly (r.word 2) = true →
    (f = 3 → plantMarksOnly (r.word 3) = true) →
    let a := s.account i
    (r.level ≤ 1 ∨ r.word 2 &&& 7#32 = 0 →
      ∃ m : MarkSet,
        exec .mark s = .next (doneAt .engine p r [c.marks.setWidth 32, (a.cfgRev + 1).setWidth 32, m.setWidth 32]
          (s.setAccount i { a with current := some { c with marks := m }, cfgRev := a.cfgRev + 1 })) ∧
        ∀ n : Nat, n < 10 →
          (r.word 2).getLsbD n = false ∧ m.getLsbD n = c.marks.getLsbD n ∨
          (r.word 2).getLsbD n = true ∧
            m.getLsbD n = (if f = 0 then true else if f = 1 then false else if f = 2 then !c.marks.getLsbD n
              else (r.word 3).getLsbD n)) ∧
    (r.level = 2 → r.word 2 &&& 7#32 ≠ 0 → exec .mark s = .next (refusedAt .engine p r .level s))

/-- CONFIGURE_CHANNEL stores the terms in a channel that is not COLLECTING; a COLLECTING channel is refused with STATE,
and a held channel's change of stack or substance with IN_USE. START_CHANNEL, STOP_CHANNEL and RELEASE_CHANNEL: their
changes, their STATE refusals and the holds on a release. That an argument absent where CONFIGURE_CHANNEL needs a value comes
behind STATE is the model's choice (assumption 27). -/
def Obligations.ChannelRequestsChangeRecord : Prop :=
  (∀ (s : State) (p : Port) (r : Request) (c : ChannelNo), Takes s .configureChannel p r →
     r.target = c.1 →
     let ch := s.channel c
     (ch.state = .collecting → exec .configureChannel s = .next (refusedAt .engine p r .state s)) ∧
     ∀ new : Channel, ch.state ≠ .collecting → r.stack = new.stack.1 → r.substance = new.substance.1 →
       r.arg 1 = some new.low → r.arg 2 = some new.high → r.arg 3 = some (new.minMinutes : Int) →
       new.state = .idle → new.link = ch.link → new.low ≤ new.high → 1 ≤ new.minMinutes → new.minMinutes ≤ 30 →
       (new.substance ≠ 15 → -8388608 ≤ new.low ∧ new.high ≤ 8388607) →
       (new.substance = 15 → 0 ≤ new.low ∧ new.high ≤ 2100) →
       (r.arg 4 = none ∧ new.oxygen = none ∨
         ∃ d ref, new.oxygen = some ⟨d, ref⟩ ∧ r.arg 4 = some (d.1 : Int) ∧ r.arg 5 = some (ref : Int) ∧ ref ≤ 2000 ∧
           new.substance ≠ 15 ∧ d ≠ c ∧ (s.channel d).state ≠ .unused ∧ (s.channel d).substance = 15 ∧
           (s.channel d).stack = new.stack) →
       ((new.stack = ch.stack ∧ new.substance = ch.substance) ∨
           (ch.link = none ∧ ∀ d, d ≠ c → ∀ o, (s.channel d).oxygen = some o → o.source ≠ c) →
         exec .configureChannel s = .next (doneAt .engine p r [num c, num ch.state.number] (s.setChannel c new))) ∧
       (new.stack ≠ ch.stack ∨ new.substance ≠ ch.substance →
         (ch.link ≠ none ∨ ∃ d o, d ≠ c ∧ (s.channel d).oxygen = some o ∧ o.source = c) →
         exec .configureChannel s = .next (refusedAt .engine p r .inUse s))) ∧
  ∀ (s : State) (p : Port) (r : Request) (c : ChannelNo), r.target = c.1 →
    let ch := s.channel c
    let pair := s.slotPair c
    (Takes s .startChannel p r →
      (ch.state = .idle →
        exec .startChannel s = .next (doneAt .engine p r [num c] (s.setChannel c { ch with state := .collecting }))) ∧
      (ch.state ≠ .idle → exec .startChannel s = .next (refusedAt .engine p r .state s))) ∧
    (Takes s .stopChannel p r →
      (ch.state = .collecting →
        exec .stopChannel s = .next (doneAt .engine p r [num c, num (pair.x.loaded.toNat + pair.y.loaded.toNat)]
          (s.setChannel c { ch with state := .idle }))) ∧
      (ch.state ≠ .collecting → exec .stopChannel s = .next (refusedAt .engine p r .state s))) ∧
    (Takes s .releaseChannel p r →
      let held := ch.link ≠ none ∨ (∃ i, (s.account i).state = .draft ∧ (s.account i).source = some c) ∨
        ∃ d o, d ≠ c ∧ (s.channel d).oxygen = some o ∧ o.source = c
      (ch.state = .idle → ¬ held →
        exec .releaseChannel s = .next (doneAt .engine p r [num c] (s.setChannel c
          { state := .unused, stack := 0, substance := 0, low := 0, high := 0, minMinutes := 20, oxygen := none,
            link := none }))) ∧
      (ch.state = .idle → held → exec .releaseChannel s = .next (refusedAt .engine p r .inUse s)) ∧
      (ch.state ≠ .idle → exec .releaseChannel s = .next (refusedAt .engine p r .state s)))

/-- READ_ACCOUNT, READ_CHANNEL, READ_STACK and READ_EPISODE: the snapshot replaces the port's view with its pointer at 0, the
returned values, and the refusals of an index out of range. The number returned for a stack's demand is the model's
inference (assumption 8). -/
def Obligations.ReadRequestsFillView : Prop :=
  ∀ (s : State) (p : Port) (r : Request),
    (Takes s .readAccount p r →
      (∀ i : SlotNo, r.target = i.1 → exec .readAccount s = .next (doneAt .engine p r
        [num i, num (s.account i).state.number, (s.account i).cfgRev.setWidth 32]
        (setView p (.account
          { slot := i, account := s.account i, linked := lowest (fun c => (s.channel c).link == some i)
            episodes := (s.episodes.filter (fun e => e.subject == .exceedance i)).length
            openNumber := (openEpisode s (.exceedance i)).map (·.number) }) s))) ∧
      (127 < r.target → exec .readAccount s = .next (refusedAt .engine p r .argument s))) ∧
    (Takes s .readChannel p r →
      (∀ c : ChannelNo, r.target = c.1 → exec .readChannel s = .next (doneAt .engine p r
        [num c, num (s.channel c).state.number]
        (setView p (.channel
          { channel := c, record := s.channel c, namedBy := countOf (namesOxygen s c)
            draft := lowest (fun i => (s.account i).state == .draft && (s.account i).source == some c) }) s))) ∧
      (47 < r.target → exec .readChannel s = .next (refusedAt .engine p r .argument s))) ∧
    (Takes s .readStack p r →
      (∀ i : StackNo, r.target = i.1 → exec .readStack s = .next (doneAt .engine p r
        [num i, num (s.input i).state.number, num (s.allowance i).demand.number]
        (setView p (.stack ⟨i, s.input i, s.feedLine i, s.allowance i⟩) s))) ∧
      (3 < r.target → exec .readStack s = .next (refusedAt .engine p r .argument s))) ∧
    (Takes s .readEpisode p r →
      ∀ (pos : Nat) (e : Episode), s.episodes[pos]? = some e →
        (r.arg 1 = some 1 ∧ r.arg 2 = some (pos : Int) ∧ pos ≤ 31 ∨
         r.arg 1 = some 0 ∧ r.arg 2 = some (e.number : Int) ∧ 1 ≤ e.number ∧ e.number ≤ 65535 ∧
          ∀ k < pos, ∀ x, s.episodes[k]? = some x → x.number ≠ e.number) →
        exec .readEpisode s = .next (doneAt .engine p r [num e.number, num pos, num s.episodes.length]
          (setView p (.episode ⟨e, pos, s.episodes.length, s.episodeCounter, subjectShown s e.subject⟩) s))) ∧
    ∀ (snap : Snapshot) (q : Port),
      ((setView p snap s).common p).view = { (s.common p).view with snapshot := snap, pointer := 0 } ∧
      (q ≠ p → (setView p snap s).common q = s.common q)

/-- SET_ALLOWANCE stores both allowances, evaluates the demand of a stack with a run, and leaves that of a stack without.
The numbers returned for demand and reason are the model's inference (assumption 8). -/
def Obligations.SetAllowanceEvaluatesRun : Prop :=
  ∀ (s : State) (p : Port) (r : Request) (i : StackNo) (ep an : Nat), Takes s .setAllowance p r →
    r.target = i.1 → r.arg 1 = some (ep : Int) → 1 ≤ ep → ep ≤ 96 → r.arg 2 = some (an : Int) → an ≤ 2000 →
    let stored := s.setAllowance i { s.allowance i with episodeAllowance := ep, annualAllowance := an }
    let t := if 1 ≤ (s.allowance i).runHh then evaluateStop i stored else stored
    let d := (t.allowance i).demand
    exec .setAllowance s = .next (doneAt .engine p r
      [num i, if d = .released then 0 else 1, if d = .annual then 1 else 0] t)

/-- ACK_EPISODE: an OPEN episode is acknowledged in place with its cause, an ENDED one leaves the list; an acknowledged one is
refused with STATE, a number not held with NOT_FOUND. -/
def Obligations.AckEpisodeTakesNote : Prop :=
  ∀ (s : State) (p : Port) (r : Request) (n cause : Nat), Takes s .ackEpisode p r →
    r.arg 1 = some (n : Int) → 1 ≤ n → n ≤ 65535 → r.arg 2 = some (cause : Int) → cause ≤ 255 →
    ((∀ e ∈ s.episodes, e.number ≠ n) → exec .ackEpisode s = .next (refusedAt .engine p r .notFound s)) ∧
    ∀ (before after_ : List Episode) (e : Episode), s.episodes = before ++ e :: after_ → e.number = n →
      (∀ x ∈ before, x.number ≠ n) →
      (e.acknowledged = true → exec .ackEpisode s = .next (refusedAt .engine p r .state s)) ∧
      (e.acknowledged = false → e.isOpen = true →
        exec .ackEpisode s = .next (doneAt .engine p r
          [num n, num e.subject.kind, num e.subject.index, 0, num s.episodes.length]
          { s with episodes := before ++
              { e with acknowledged := true, cause := if cause = 0 then none else some cause } :: after_ })) ∧
      (e.acknowledged = false → e.isOpen = false →
        exec .ackEpisode s = .next (doneAt .engine p r
          [num n, num e.subject.kind, num e.subject.index, 1, num (s.episodes.length - 1)]
          { s with episodes := before ++ after_ }))

/-- FIND changes no table and returns the lowest match from the start slot, the highest match, the count and the group's
match sets; a slot matches when each field in the care set equals its compare value. A start slot above 127, a care set
beyond the five fields and a compare value out of range are refused with ARGUMENT. -/
def Obligations.FindReturnsMatches : Prop :=
  ∀ (s : State) (p : Port) (r : Request), Takes s .find p r →
    ((∀ start : SlotNo, r.arg 4 ≠ some (start.1 : Int)) → exec .find s = .next (refusedAt .engine p r .argument s)) ∧
    ((∀ k, ¬ Compares r k) → exec .find s = .next (refusedAt .engine p r .argument s)) ∧
    ∀ (start : SlotNo) (k : Compare), r.arg 4 = some (start.1 : Int) → Compares r k →
      (∃ v : List Word32, v.length = 6 ∧ exec .find s = .next (doneAt .engine p r v s) ∧
        (∀ i : SlotNo, start ≤ i → (s.account i).matching k = true →
          (∀ j, start ≤ j → j < i → (s.account j).matching k = false) → v[0]? = some (num i)) ∧
        ((∀ i, start ≤ i → (s.account i).matching k = false) → v[0]? = some 0x80000000#32) ∧
        (∀ i : SlotNo, (s.account i).matching k = true → (∀ j, i < j → (s.account j).matching k = false) →
          v[1]? = some (num i)) ∧
        ((∀ i, (s.account i).matching k = false) → v[1]? = some 0x80000000#32) ∧
        v[2]? = some (num (countOf (fun i : SlotNo => (s.account i).matching k))) ∧
        v[3]? = some (num (start.1 / 32 : Nat)) ∧
        (∀ n : Fin 16, ∀ i : SlotNo, i.1 = 32 * (start.1 / 32) + n.1 →
          ∃ w, v[4]? = some w ∧ w.getLsbD n = (s.account i).matching k) ∧
        (∀ n : Fin 16, ∀ i : SlotNo, i.1 = 32 * (start.1 / 32) + 16 + n.1 →
          ∃ w, v[5]? = some w ∧ w.getLsbD n = (s.account i).matching k)) ∧
      (∀ a : Account, a.matching k = true ↔
        (∀ x ∈ k.stack, x = a.key.stack.1) ∧ (∀ x ∈ k.substance, x = a.key.substance.1) ∧
        (∀ x ∈ k.edition, x = a.key.edition.1) ∧ (∀ x ∈ k.state, x = a.state.number) ∧
        (∀ x ∈ k.closed, x = a.closed.isSome.toNat))

/-! ## Port A, port B and the window -/

/-- What a read of identification and part status returns on either port, without an effect but at 0x04; and a stopped part
answers nothing else. That the bits which R182 does not assign read zero, bits 2 to 7 of 0x0F and bits 1 to 7 of 0x0B, is the
model's inference (assumption 7). -/
def Obligations.PartStatusReads : Prop :=
  ∀ (s : State) (p : Port) (loc : Loc),
    let n := loc.toNat
    let v := (windowRead p loc s).1
    let area := (s.common p).area
    let capture := (s.common p).capture
    (n ≤ 0x0F → n ≠ 0x04 → (windowRead p loc s).2 = s) ∧
    (n = 0x00 → v = 0x4A) ∧ (n = 0x01 → v = 0x01) ∧
    (n = 0x02 → [ClockState.unset, .hold, .run, .stopped][v.toNat]? = some s.clock.state) ∧
    (n = 0x03 → [TimeSource.external, .internal][v.toNat]? = some s.clock.source) ∧
    (n = 0x05 → v = BitVec.ofNat 8 (capture.year / 256)) ∧
    (n = 0x06 → v = BitVec.ofNat 8 capture.day) ∧ (n = 0x07 → v = BitVec.ofNat 8 (capture.day / 256)) ∧
    (n = 0x08 → v = BitVec.ofNat 8 capture.minute) ∧ (n = 0x09 → v = BitVec.ofNat 8 (capture.minute / 256)) ∧
    (n = 0x0A → v = BitVec.ofNat 8 s.queue.length) ∧
    (n = 0x0B → (∃ g, Entry.gap g ∈ s.queue) → v = 1) ∧ (n = 0x0B → (∀ g, Entry.gap g ∉ s.queue) → v = 0) ∧
    (n = 0x0C →
      (s.part ≠ .running → v = 4) ∧ (s.part = .running → area.busy = true → v = 3) ∧
      (s.part = .running → area.busy = false → [AreaState.idle, .pending, .done][v.toNat]? = some area.state)) ∧
    (n = 0x0D → p = .a → [Phase.selector, .value][v.toNat]? = some s.portB.phase) ∧ (n = 0x0D → p = .b → v = 0) ∧
    (n = 0x0E → v = BitVec.ofNat 8 s.clock.graceSetting) ∧
    (n = 0x0F → v.getLsbD 0 = s.clock.calendarSet ∧ v.getLsbD 1 = s.clock.rangeEnd ∧ v.toNat < 4) ∧
    (s.part = .stopped → 0x0F < n → windowRead p loc s = (0, s))

/-- What a read without an effect returns of the request and response blocks, the view's kind, the posting area and the
Event Unit, and that it changes nothing. The view pointer as read at 0x51 and 0x52 is the model's inference (assumption 9),
and so is the detail pointer as read at 0x7E (assumption 7); bits 4 to 7 of 0x6B and 4 to 6 of 0x78 are open (assumption
6) and not stated. -/
def Obligations.RequestPostingAndEventReads : Prop :=
  ∀ (s : State) (p : Port) (loc : Loc), s.part ≠ .stopped →
    let n := loc.toNat
    let v := (windowRead p loc s).1
    let port := s.common p
    let u := s.events
    ((p = .a → loc ∉ effectLocs) → (p = .b → n ≠ 0x04 ∧ n ≠ 0x53) → (windowRead p loc s).2 = s) ∧
    (0x10 ≤ n → n ≤ 0x2E → v = blockByte port.block (n - 0x10)) ∧
    (n = 0x2F ∨ (0x4A ≤ n ∧ n ≤ 0x4F) ∨ (0x54 ≤ n ∧ n ≤ 0x5F) ∨ (p = .b ∧ 0x60 ≤ n) → v = 0) ∧
    (n = 0x30 → (port.area.response.outcome = none → v = 0) ∧
      ∀ o, port.area.response.outcome = some o → 1 ≤ v.toNat ∧
        [ReqOutcome.done, .unknown, .level, .argument, .state, .keyTaken, .noSpace, .inUse, .stale, .notFound, .clockHeld,
          .backlog, .power][v.toNat - 1]? = some o) ∧
    (n = 0x31 → v = port.area.response.code) ∧
    (∀ (i : Fin 6) (k : Fin 4), n = 0x32 + 4 * i.1 + k.1 →
      v = (port.area.response.values.get i).extractLsb' (8 * k.1) 8) ∧
    (n = 0x50 → v.toNat = (match port.view.snapshot with
      | .none => 0
      | .account _ => 1
      | .channel _ => 2
      | .stack _ => 3
      | .episode _ => 4)) ∧
    (n = 0x51 → v = BitVec.ofNat 8 port.view.pointer) ∧ (n = 0x52 → v = BitVec.ofNat 8 (port.view.pointer / 256)) ∧
    (∀ c k, selected s = some (c, k) ↔
      s.portA.channelSelect.toNat = c.1 ∧ s.portA.slotSelect = (match k with
        | .x => 0
        | .y => 1)) ∧
    (p = .a →
      (n = 0x60 → v = s.portA.channelSelect) ∧ (n = 0x61 → v = s.portA.slotSelect) ∧
      (selected s = none → 0x62 ≤ n → n ≤ 0x6F → v = 0) ∧
      (∀ c k, selected s = some (c, k) →
        let slot := (s.slotPair c).get k
        let x := (s.slotPair c).x.stamp
        let y := (s.slotPair c).y.stamp
        let yEarlier := y.year < x.year ∨ y.year = x.year ∧ (y.day < x.day ∨ y.day = x.day ∧ y.minute < x.minute)
        (n = 0x62 → v = slot.year.extractLsb' 0 8) ∧ (n = 0x63 → v = slot.year.extractLsb' 8 8) ∧
        (n = 0x64 → v = slot.day.extractLsb' 0 8) ∧ (n = 0x65 → v = slot.day.extractLsb' 8 8) ∧
        (n = 0x66 → v = slot.minute.extractLsb' 0 8) ∧ (n = 0x67 → v = slot.minute.extractLsb' 8 8) ∧
        (n = 0x68 → v = slot.value.extractLsb' 0 8) ∧ (n = 0x69 → v = slot.value.extractLsb' 8 8) ∧
        (n = 0x6A → v = slot.value.extractLsb' 16 8) ∧
        (n = 0x6B → v.extractLsb' 0 4 = slot.quality.extractLsb' 0 4) ∧ (n = 0x6C → v = 0) ∧
        (n = 0x6D → v = if slot.loaded then 1 else 0) ∧
        (n = 0x6E → [ResultCode.none, .accepted, .taken, .discardedStopped, .discardedCalendar, .refusedClock,
          .refusedChannel, .refusedNotEmpty, .refusedQuality, .refusedStamp, .refusedDuplicate][v.toNat]? =
            some slot.code) ∧
        (n = 0x6F → (yEarlier → v = 1) ∧ (¬ yEarlier → v = 0))) ∧
      (∀ i : Fin 16,
        (n = 0x70 + i.1 / 8 → v.getLsbD (i.1 % 8) = (u.sources.get i).enable) ∧
        (n = 0x72 + i.1 / 8 → v.getLsbD (i.1 % 8) = (u.sources.get i).masked) ∧
        (n = 0x74 + i.1 / 8 → v.getLsbD (i.1 % 8) = (u.sources.get i).pending) ∧
        (n = 0x76 + i.1 / 8 → v.getLsbD (i.1 % 8) = (u.sources.get i).inService)) ∧
      (n = 0x78 → v.extractLsb' 0 4 = u.vectorBase ∧ v.getLsbD 7 = u.tracking) ∧
      (0x7A ≤ n → n ≤ 0x7D → v = 0) ∧
      (n = 0x7E → v.getLsbD 7 = u.lastAck.isSome ∧ (v.extractLsb' 0 5).toNat = u.detailPointer.1))

/-- The bytes of the four snapshots: their lengths, every field at its offset with the lowest byte first, and the form of
what is absent. That the bits of a field without content are zero, in mark sets, verdict, marks bytes and stamps, is the
model's inference (assumption 7); that year_abn_hh and episodes this year beyond their ranges show their low 16 bits is the
model's choice (assumption 24). -/
def Obligations.SnapshotsLayOutBytes : Prop :=
  (∀ x : AccountSnapshot,
    let b := (Snapshot.account x).bytes
    let a := x.account
    b.length = 151 ∧ Shows b 0 1 x.slot ∧
    [AccountState.free, .draft, .active, .frozen, .lapsed][leNat b 1 1]? = some a.state ∧
    Shows b 2 1 (16 * a.key.stack.1 + a.key.substance.1) ∧ Shows b 3 1 a.key.edition ∧
    ShowsOr b 4 1 (a.source.map Fin.val) ∧ ShowsOr b 5 1 (x.linked.map Fin.val) ∧ Shows b 6 2 a.cfgRev.toNat ∧
    ShowsOr b 8 4 a.terms.short ∧ ShowsOr b 12 4 (a.terms.pct.map (·.limit)) ∧
    ShowsOr b 16 2 (a.terms.pct.map (·.share)) ∧ ShowsOr b 18 4 a.terms.day ∧ Shows b 22 2 a.terms.ci ∧
    Shows b 24 1 a.terms.maxInvalid ∧ Shows b 25 2 a.terms.allowance ∧ Shows b 27 1 x.episodes ∧
    Shows b 28 2 (x.openNumber.getD 0) ∧ ShowsStampOr b 30 a.activatedAt ∧ ShowsStampOr b 34 a.frozenAt ∧
    (a.current = none → ZeroFrom b 38 63) ∧
    (∀ c, a.current = some c →
      Shows b 38 1 1 ∧ Shows b 39 2 c.marks.toNat ∧ Shows b 41 2 c.day.day ∧ Shows b 43 1 c.day.hhValid ∧
      Shows b 44 1 c.day.hhInvalid ∧ Shows b 45 1 c.day.hhExcluded ∧ Shows b 46 1 c.day.hhAbnormal ∧
      Shows b 47 1 c.day.hhGap ∧ Shows b 48 1 c.day.hhOverShort ∧ Shows b 49 8 c.day.sum ∧ ShowsYear b 57 c.year) ∧
    (a.closed = none → ZeroFrom b 101 50) ∧
    (∀ c, a.closed = some c →
      Shows b 101 1 1 ∧ Shows b 102 2 c.yearNo ∧ Shows b 104 2 c.marks.toNat ∧
      Shows b 106 1 (c.verdict.shortMet.toNat + 2 * c.verdict.pctMet.toNat + 4 * c.verdict.dayMet.toNat +
        8 * c.verdict.availabilityMet.toNat) ∧ ShowsYear b 107 c.year)) ∧
  (∀ x : ChannelSnapshot,
    let b := (Snapshot.channel x).bytes
    let ch := x.record
    b.length = 18 ∧ Shows b 0 1 x.channel ∧
    [ChannelState.unused, .idle, .collecting][leNat b 1 1]? = some ch.state ∧
    Shows b 2 1 (16 * ch.stack.1 + ch.substance.1) ∧ BitVec.ofNat 32 (leNat b 3 4) = BitVec.ofInt 32 ch.low ∧
    BitVec.ofNat 32 (leNat b 7 4) = BitVec.ofInt 32 ch.high ∧ Shows b 11 1 ch.minMinutes ∧
    ShowsOr b 12 1 (ch.oxygen.map (fun o => o.source.1)) ∧ ShowsOr b 13 2 (ch.oxygen.map (·.reference)) ∧
    ShowsOr b 15 1 (ch.link.map Fin.val) ∧ Shows b 16 1 x.namedBy ∧ ShowsOr b 17 1 (x.draft.map Fin.val)) ∧
  (∀ x : StackSnapshot,
    let b := (Snapshot.stack x).bytes
    let i := x.input
    let r := x.allowance
    b.length = 39 ∧ Shows b 0 1 x.stack ∧ Shows b 1 1 i.enable.toNat ∧ Shows b 2 1 i.debounce ∧
    Shows b 3 1 i.takenOn.toNat ∧ Shows b 4 1 x.line.toNat ∧ Shows b 5 1 i.timer.isSome.toNat ∧
    [StackState.off, .firing, .abnormal][leNat b 6 1]? = some i.state ∧
    (i.declaration = none → leNat b 7 4 = 0xFFFFFFFF) ∧
    (∀ d, i.declaration = some d → ShowsStamp b 7 d.year d.day d.minute) ∧
    Shows b 11 1 (i.openMarks.fired.toNat + 2 * i.openMarks.abnormal.toNat) ∧
    ShowsOr b 12 1 (i.frozen.map (fun m => m.fired.toNat + 2 * m.abnormal.toNat)) ∧
    Shows b 13 1 r.episodeAllowance ∧ Shows b 14 2 r.annualAllowance ∧ Shows b 16 2 r.runHh ∧ Shows b 18 2 r.yearAbnHh ∧
    Shows b 20 2 r.episodesYear ∧ Shows b 22 2 r.longestRun ∧ Shows b 24 1 r.exceeded.toNat ∧
    [StopDemand.released, .episode, .annual][leNat b 25 1]? = some r.demand ∧
    ShowsStampOr b 26 (r.last.map (·.stamp)) ∧ ShowsOr b 30 1 (r.last.map (·.fired)) ∧
    ShowsOr b 31 1 (r.last.map (·.abnormal)) ∧ Shows b 32 2 r.previous.abnormalHh ∧ Shows b 34 2 r.previous.episodes ∧
    Shows b 36 2 r.previous.longestRun ∧ Shows b 38 1 r.previous.exceeded.toNat) ∧
  ∀ x : EpisodeSnapshot,
    let b := (Snapshot.episode x).bytes
    let e := x.episode
    b.length = 31 ∧ Shows b 0 2 e.number ∧
    (∀ i : SlotNo, e.subject = .exceedance i → Shows b 2 1 0 ∧ Shows b 3 1 i) ∧
    (∀ i : StackNo, e.subject = .abnormalOperation i → Shows b 2 1 1 ∧ Shows b 3 1 i) ∧
    Shows b 4 1 e.ended.isSome.toNat ∧ ShowsStamp b 5 e.start.year e.start.day e.start.hh ∧ ShowsStampOr b 9 e.ended ∧
    Shows b 13 2 e.length ∧ ShowsOr b 15 4 e.peak ∧ Shows b 19 1 e.acknowledged.toNat ∧ Shows b 20 1 (e.cause.getD 0) ∧
    Shows b 21 1 x.position ∧ Shows b 22 1 x.count ∧ Shows b 23 2 x.counter ∧
    (∀ key state, x.shown = .account key state →
      Shows b 25 1 (16 * key.stack.1 + key.substance.1) ∧ Shows b 26 1 key.edition ∧
      [AccountState.free, .draft, .active, .frozen, .lapsed][leNat b 27 1]? = some state ∧ ZeroFrom b 28 3) ∧
    ∀ runHh demand, x.shown = .stack runHh demand →
      ZeroFrom b 25 3 ∧ Shows b 28 2 runHh ∧ [StopDemand.released, .episode, .annual][leNat b 30 1]? = some demand

/-- FRAME_START, FRAME_HEADER and FRAME_END. MISO undriven as `none` is the model's form (assumption 11). -/
def Obligations.FrameOpensAndCloses : Prop :=
  ∀ s : State,
    (s.portA.csnLow = false → exec .frameStart s = .next { s with
      portA := { s.portA with csnLow := true, frame := some .header, miso := some 0 } }) ∧
    (∀ header : Byte, s.portA.frame = some .header → exec (.frameHeader header) s = .next { s with
      portA := { s.portA with frame := some (.data (header.getLsbD 7) (header.extractLsb' 0 7)) } }) ∧
    exec .frameEnd s = .next { s with portA := { s.portA with csnLow := false, frame := none, miso := none } }

/-- REGISTER_WRITE on either port: a byte of the request block, the held byte of the view pointer, port A's selects and held
event bytes; a location with no write meaning is ignored, port A's read-only locations included; and a stopped part ignores
every write.
VIEW_POINTER_WRITE on either port: the pointer takes the held low byte and the written high byte; above 511 it is
ignored. That the held byte stays after a write to 0x52, taken or ignored, is the model's inference (assumption 9). -/
def Obligations.RegisterAndViewPointerWrites : Prop :=
  (∀ (p : Port) (loc : Loc) (v : Byte) (s : State), Writes p loc s → ownRow p loc = false →
    let t := afterByte p loc s
    let c := t.common p
    (s.part = .stopped → exec (.registerWrite p loc v) s = .next t) ∧
    (s.part ≠ .stopped →
      (∀ i : Fin 31, loc.toNat = 0x10 + i.1 →
        exec (.registerWrite p loc v) s = .next (t.setCommon p { c with block := put c.block i v })) ∧
      (loc = 0x51 → exec (.registerWrite p loc v) s =
        .next (t.setCommon p { c with view := { c.view with held := v } })) ∧
      (p = .a → loc = 0x60 → exec (.registerWrite p loc v) s =
        .next { t with portA := { t.portA with channelSelect := v } }) ∧
      (p = .a → loc = 0x61 → exec (.registerWrite p loc v) s =
        .next { t with portA := { t.portA with slotSelect := v } }) ∧
      (p = .a → loc = 0x7A → exec (.registerWrite p loc v) s =
        .next { t with events := { t.events with clearHeld := v } }) ∧
      (p = .a → loc = 0x7C → exec (.registerWrite p loc v) s =
        .next { t with events := { t.events with serviceHeld := v } }) ∧
      (loc.toNat < 0x10 ∨ (0x30 ≤ loc.toNat ∧ loc.toNat < 0x51) ∨ (0x53 ≤ loc.toNat ∧ loc.toNat < 0x60) ∨
          (p = .b ∧ 0x60 ≤ loc.toNat) ∨ (p = .a ∧ ((0x6D ≤ loc.toNat ∧ loc.toNat ≤ 0x6F) ∨
            (0x74 ≤ loc.toNat ∧ loc.toNat ≤ 0x77) ∨ loc.toNat = 0x79 ∨ loc.toNat = 0x7F)) → exec (.registerWrite p loc v) s = .next t))) ∧
  (∀ (p : Port) (v : Byte) (s : State), Writes p 0x52 s → s.part ≠ .stopped →
    let t := afterByte p 0x52 s
    let c := t.common p
    let n := v.toNat * 256 + c.view.held.toNat
    (n ≤ 511 → exec (.viewPointerWrite p v) s =
      .next (t.setCommon p { c with view := { c.view with pointer := n } })) ∧
    (511 < n → exec (.viewPointerWrite p v) s = .next t))

/-- CALENDAR_CAPTURE on either port: the whole position shown goes into the port's capture, and the year's low byte is
answered.
VIEW_DATA_READ on either port: the snapshot byte at the pointer, zero at or beyond the snapshot's length, and the pointer
advances, stopping at 511. That the pointer advances under a view of kind NONE too is the model's inference (assumption 9);
that a read frame standing before 0x04 or 0x53 passes over the bytes up to it is the model's choice (assumption 10). -/
def Obligations.CaptureAndViewReads : Prop :=
  (∀ s : State,
    let shown : MinuteStamp :=
      if s.clock.state = .unset then ⟨0, 0, 0⟩
      else if s.clock.state = .hold then s.clock.saved.getD s.clock.position else s.clock.position
    let first : Byte := BitVec.ofNat 8 shown.year
    (FrameReads 0x04 s → exec (.calendarCapture .a) s =
      .next (afterRead 0x04 first (s.setCommon .a { s.common .a with capture := shown }))) ∧
    (s.portB.lineBreak = false → s.portB.phase = .selector →
      ∃ t, exec (.calendarCapture .b) s = .next t ∧ t.portB.common.capture = shown ∧ t.portB.pointer = 0x04 ∧
        (s.portB.sending = none → t.portB.sending = some first ∧ t.portB.answers = s.portB.answers) ∧
        (s.portB.sending ≠ none → t.portB.sending = s.portB.sending ∧ t.portB.answers = s.portB.answers ++ [first]) ∧
        t = { s with portB := { s.portB with
          common := { s.portB.common with capture := shown }, pointer := 0x04, sending := t.portB.sending,
          answers := t.portB.answers } })) ∧
  (∀ (s : State) (p : Port), s.part ≠ .stopped →
    let view := (s.common p).view
    ∃ b : Byte,
      (∀ v, view.snapshot.bytes[view.pointer]? = some v → b = v) ∧ (view.snapshot.bytes.length ≤ view.pointer → b = 0) ∧
      (p = .a → FrameReads 0x53 s → exec (.viewDataRead .a) s = .next (afterRead 0x53 b (s.setCommon .a
        { s.common .a with view := { view with pointer := min 511 (view.pointer + 1) } }))) ∧
      (p = .b → s.portB.lineBreak = false → s.portB.phase = .selector → s.portB.sending = none →
        exec (.viewDataRead .b) s = .next { s with portB := { s.portB with
          common := { s.portB.common with view := { view with pointer := min 511 (view.pointer + 1) } }
          pointer := 0x53
          sending := some b } }))

/-- RECORD_WRITE replaces one byte of the selected EMPTY slot's record and nothing else; it is ignored for a LOADED slot,
with no slot selected and from the start of the stop. That a slot is LOADED still while a SET_CALENDAR in hand has not been
performed is the model's choice (assumption 25).
HAND_OVER: the six checks in order; a refusal sets the code and raises POSTING_REFUSED with the channel; when all pass the
slot is LOADED with its record as it stands. No request is in hand at a HAND_OVER. -/
def Obligations.PostingAreaWritesAndHandOver : Prop :=
  (∀ (loc : Loc) (v : Byte) (s : State), Writes .a loc s → 0x62 ≤ loc.toNat → loc.toNat ≤ 0x6B →
     let t := afterByte .a loc s
     (selected s = none ∨ s.part ≠ .running → exec (.recordWrite loc v) s = .next t) ∧
     ∀ c n, selected s = some (c, n) →
       let p := (s.slotPair c).get n
       (p.loaded = true → exec (.recordWrite loc v) s = .next t) ∧
       (p.loaded = false → s.part = .running →
         ∃ q : PostingSlot, exec (.recordWrite loc v) s = .next (t.setSlot c n q) ∧
           q.loaded = false ∧ q.code = p.code ∧
           let bytes := fun x : PostingSlot =>
             bitBytes 2 x.year ++ bitBytes 2 x.day ++ bitBytes 2 x.minute ++ bitBytes 3 x.value ++ [x.quality]
           bytes q = (bytes p).set (loc.toNat - 0x62) v)) ∧
  ∀ (v : Byte) (s : State) (c : ChannelNo) (n : SlotName), NoneInHand s → Writes .a 0x6C s → selected s = some (c, n) →
    s.part ≠ .stopped →
    let t := afterByte .a 0x6C s
    let p := (s.slotPair c).get n
    let q := (s.slotPair c).get n.other
    let refusedWith := fun code => exec (.handOver v) s =
      .next (raiseEvent .postingRefused c (t.setSlot c n { p with code := code }))
    let check1 := s.clock.state = .run ∧ s.part = .running
    let check2 := (s.channel c).state = .collecting
    let check3 := p.loaded = false
    let check4 := p.qualityCode ≤ 3
    let check5 := p.stamp = s.clock.position ∨ ∃ g, s.clock.inGrace = some g ∧ p.stamp = g.stamp
    let check6 := q.loaded = false ∨ q.stamp ≠ p.stamp
    (¬ check1 → refusedWith .refusedClock) ∧
    (check1 → ¬ check2 → refusedWith .refusedChannel) ∧
    (check1 → check2 → ¬ check3 → refusedWith .refusedNotEmpty) ∧
    (check1 → check2 → check3 → ¬ check4 → refusedWith .refusedQuality) ∧
    (check1 → check2 → check3 → check4 → ¬ check5 → refusedWith .refusedStamp) ∧
    (check1 → check2 → check3 → check4 → check5 → ¬ check6 → refusedWith .refusedDuplicate) ∧
    (check1 → check2 → check3 → check4 → check5 → check6 →
      exec (.handOver v) s = .next (t.setSlot c n { p with loaded := true, code := .accepted }))

/-- An event of a source: with the source enabled, pending becomes yes and the detail is replaced; otherwise nothing is
remembered; other sources keep their records. The sixteen sources have the numbers of R175. -/
def Obligations.EventRecordedWhenEnabled : Prop :=
  (∀ e : EventSource,
    [EventSource.halfHourClosed, .requestDone, .inspection, .minuteIncomplete, .postingRefused, .feed, .dayClosed,
      .priorUncertified, .yearClosed, .backlog, .allowance, .abnormalOpened, .shortOpened, .listFull, .clockLost,
      .stop][e.number.1]? = some e) ∧
  ∀ (u : EventUnit) (e : EventSource) (d : Nat),
    let r := u.sources.get e.number
    (r.enable = true → (u.record e d).sources.get e.number = { r with pending := true, detail := BitVec.ofNat 16 d }) ∧
    (r.enable = false → u.record e d = u) ∧
    (∀ i, i ≠ e.number → (u.record e d).sources.get i = u.sources.get i) ∧
    u.record e d = { u with sources := (u.record e d).sources }

/-- The six writes of the event unit: ENABLE_WRITE, MASK_WRITE, TRACKING_AND_VECTOR_BASE_WRITE, PENDING_CLEAR,
END_OF_SERVICE and DETAIL_POINTER_WRITE. That an ignored write to 0x7E leaves the byte phase is the model's inference
(assumption 21). -/
def Obligations.EventUnitWrites : Prop :=
  ∀ (v : Byte) (s : State), s.part ≠ .stopped →
    (∀ loc : Loc, loc = 0x70 ∨ loc = 0x71 → Writes .a loc s →
      ∃ u, exec (.enableWrite loc v) s = .next { afterByte .a loc s with events := u } ∧
        u = { s.events with sources := u.sources } ∧
        ∀ i : Fin 16, u.sources.get i = { s.events.sources.get i with
          enable := if i.1 / 8 = loc.toNat - 0x70 then v.getLsbD (i.1 % 8) else (s.events.sources.get i).enable }) ∧
    (∀ loc : Loc, loc = 0x72 ∨ loc = 0x73 → Writes .a loc s →
      ∃ u, exec (.maskWrite loc v) s = .next { afterByte .a loc s with events := u } ∧
        u = { s.events with sources := u.sources } ∧
        ∀ i : Fin 16, u.sources.get i = { s.events.sources.get i with
          masked := if i.1 / 8 = loc.toNat - 0x72 then v.getLsbD (i.1 % 8) else (s.events.sources.get i).masked }) ∧
    (Writes .a 0x78 s → ∃ u, exec (.trackingAndVectorBaseWrite v) s = .next { afterByte .a 0x78 s with events := u } ∧
      u = { s.events with control := u.control } ∧ u.tracking = v.getLsbD 7 ∧ u.vectorBase = v.extractLsb' 0 4) ∧
    (Writes .a 0x7B s → ∃ u, exec (.pendingClear v) s = .next { afterByte .a 0x7B s with events := u } ∧
      u = { s.events with sources := u.sources, clearHeld := 0 } ∧
      ∀ i : Fin 16, u.sources.get i = { s.events.sources.get i with
        pending := (s.events.sources.get i).pending &&
          !(if i.1 < 8 then s.events.clearHeld.getLsbD i.1 else v.getLsbD (i.1 - 8)) }) ∧
    (Writes .a 0x7D s → ∃ u, exec (.endOfService v) s = .next { afterByte .a 0x7D s with events := u } ∧
      u = { s.events with sources := u.sources, serviceHeld := 0 } ∧
      ∀ i : Fin 16, u.sources.get i = { s.events.sources.get i with
        inService := (s.events.sources.get i).inService &&
          !(if i.1 < 8 then s.events.serviceHeld.getLsbD i.1 else v.getLsbD (i.1 - 8)) }) ∧
    (Writes .a 0x7E s →
      (∀ i : Fin 17, v.toNat = i.1 → exec (.detailPointerWrite v) s = .next { afterByte .a 0x7E s with
        events := { s.events with detailPointer := i, highNext := false } }) ∧
      (16 < v.toNat → exec (.detailPointerWrite v) s = .next (afterByte .a 0x7E s)))

/-- INT is low exactly while a source is presentable. VECTOR_READ acknowledges the highest-numbered presentable source, or
returns the base with 0 and marks the record not present.
DETAIL_DATA_READ: the low byte of the selected detail with the high byte held, then the held byte with the pointer moving
on, from 16 to 0. That a read frame standing before 0x79 or 0x7F passes over the bytes up to it is the model's choice
(assumption 10). -/
def Obligations.VectorAndDetailReads : Prop :=
  (∀ s : State, s.part ≠ .stopped → (intPin s = false ↔ ∃ i, Presentable s.events i)) ∧
  (∀ s : State, FrameReads 0x79 s → s.part ≠ .stopped →
    let u := s.events
    let presentable := Presentable u
    (∀ i, presentable i → (∀ j, i < j → ¬ presentable j) →
      exec .vectorRead s = .next { afterRead 0x79 (u.vectorBase ++ BitVec.ofNat 4 i.1) s with
        events := { u with
          sources := put u.sources i { u.sources.get i with
            pending := false, inService := (u.sources.get i).inService || u.tracking }
          lastAck := some (u.sources.get i).detail
          detailPointer := 16
          highNext := false } }) ∧
    ((∀ i, ¬ presentable i) →
      exec .vectorRead s = .next { afterRead 0x79 (u.vectorBase ++ 0#4) s with events := { u with lastAck := none } })) ∧
  (∀ s : State, FrameReads 0x7F s → s.part ≠ .stopped →
    let u := s.events
    (u.highNext = false →
      (∀ i : Fin 16, u.detailPointer.1 = i.1 → exec .detailDataRead s =
        .next { afterRead 0x7F ((u.sources.get i).detail.extractLsb' 0 8) s with
          events := { u with highNext := true, detailHeld := (u.sources.get i).detail.extractLsb' 8 8 } }) ∧
      (u.detailPointer.1 = 16 → exec .detailDataRead s =
        .next { afterRead 0x7F ((u.lastAck.getD 0).extractLsb' 0 8) s with
          events := { u with highNext := true, detailHeld := (u.lastAck.getD 0).extractLsb' 8 8 } })) ∧
    (u.highNext = true → ∀ next : Fin 17, next.1 = (if u.detailPointer.1 = 16 then 0 else u.detailPointer.1 + 1) →
      exec .detailDataRead s = .next { afterRead 0x7F u.detailHeld s with
        events := { u with highNext := false, detailPointer := next } }))

/-- READ_SELECTOR, WRITE_SELECTOR and VALUE_BYTE in their phases.
FRAMING_ERROR, BREAK, BREAK_END and ANSWER_SENT; TXD is high while no answer is sent. -/
def Obligations.PortBReceivesAndSends : Prop :=
  (∀ (v : Byte) (s : State), s.portB.lineBreak = false →
    (s.portB.phase = .selector → v.getLsbD 7 = true →
      let loc : Loc := v.extractLsb' 0 7
      let r := windowRead .b loc { s with portB := { s.portB with pointer := loc } }
      (s.portB.sending = none →
        exec (.readSelector v) s = .next { r.2 with portB := { r.2.portB with sending := some r.1 } }) ∧
      (s.portB.sending ≠ none →
        exec (.readSelector v) s = .next { r.2 with portB := { r.2.portB with answers := s.portB.answers ++ [r.1] } })) ∧
    (s.portB.phase = .selector → v.getLsbD 7 = false →
      exec (.writeSelector v) s =
        .next { s with portB := { s.portB with phase := .value, pointer := v.extractLsb' 0 7 } }) ∧
    (s.portB.phase = .value →
      exec (.valueByte v) s =
        .next (windowWrite .b s.portB.pointer v { s with portB := { s.portB with phase := .selector } }))) ∧
  (∀ s : State,
    exec .framingError s = .next { s with portB := { s.portB with phase := .selector } } ∧
    exec .rxdBreak s = .next { s with portB := { s.portB with
      phase := .selector
      pointer := 0
      lineBreak := true
      common := { s.portB.common with view := { s.portB.common.view with pointer := 0 } } } } ∧
    exec .breakEnd s = .next { s with portB := { s.portB with lineBreak := false } } ∧
    (∀ a b rest, s.portB.sending = some a → s.portB.answers = b :: rest →
      exec .answerSent s = .next { s with portB := { s.portB with sending := some b, answers := rest } }) ∧
    (∀ a, s.portB.sending = some a → s.portB.answers = [] →
      exec .answerSent s = .next { s with portB := { s.portB with sending := none } }) ∧
    (s.portB.sending = none → txdPin s = .level true) ∧ (∀ a, s.portB.sending = some a → txdPin s = .sending a))

/-! ## Invariants -/

/-- Every step keeps the shape of every account, the distinct keys, at most one ACTIVE account of a stack and substance, and the
agreement of links and ACTIVE accounts. -/
def Obligations.StepKeepsAccountAndLinkLaw : Prop :=
  ∀ s t : State, AccountLaw s → LinkLaw s → step s = .next t → AccountLaw t ∧ LinkLaw t

/-- Every step keeps the clock's law and the Result Queue's law, where what the owners have in hand obeys its law. -/
def Obligations.StepKeepsClockAndQueueLaw : Prop :=
  ∀ s t : State, ClockLaw s → QueueLaw s → HandLaw s → step s = .next t → ClockLaw t ∧ QueueLaw t

/-- Every step keeps the posting slots' law. -/
def Obligations.StepKeepsSlotLaw : Prop :=
  ∀ s t : State, ClockLaw s → SlotLaw s → step s = .next t → SlotLaw t

/-- Every step keeps the Episode List's law; an EXCEEDANCE episode's account is neither FREE nor DRAFT by the shape of the
accounts. -/
def Obligations.StepKeepsEpisodeLaw : Prop :=
  ∀ s t : State, AccountLaw s → EpisodeLaw s → step s = .next t → EpisodeLaw t

/-- Every step keeps the stack input records' law, the allowance records' law, the ports' law and, with the clock's law, the
law of what the owners have in hand. That no request is in hand once the stop has begun rests on the model's choice that it is
completed in the step that begins the stop, and the order of taking is the model's own record (assumption 25); that MISO is
driven with a frame open and not otherwise, after a restart with CSN low too, is the model's form (assumption 11). -/
def Obligations.StepKeepsStackAndPortLaws : Prop :=
  ∀ s t : State, step s = .next t →
    (StackInputLaw s → StackInputLaw t) ∧ (AllowanceLaw s → AllowanceLaw t) ∧ (PortLaw s → PortLaw t) ∧
    (ClockLaw s → HandLaw s → HandLaw t)
end

