-- ==== Sys2Proof/Laws/State.lean ====
section
/-! SUPPORT. One lemma per field that a named update leaves alone, and what each update writes. -/

namespace Sys2Proof.Machine

/-! ## Tables -/

@[simp] theorem get_put {n : Nat} {α : Type} (v : Vector α n) (i j : Fin n) (x : α) :
    (put v i x).get j = if i = j then x else v.get j := by
  simp [put, Vector.get_eq_getElem, Vector.getElem_set, Fin.ext_iff]

@[simp] theorem get_tabulate {n : Nat} {α : Type} (f : Fin n → α) (i : Fin n) : (tabulate f).get i = f i := by
  simp [tabulate, Vector.get_eq_getElem]

@[simp] theorem get_replicate {n : Nat} {α : Type} (x : α) (i : Fin n) : (Vector.replicate n x).get i = x := by
  simp [Vector.get_eq_getElem]

/-! ## State.setCommon -/

@[simp] theorem State.setCommon_now (p : Port) (c : PortCommon) (s : State) : (s.setCommon p c).now = s.now := by cases p <;> rfl
@[simp] theorem State.setCommon_part (p : Port) (c : PortCommon) (s : State) : (s.setCommon p c).part = s.part := by cases p <;> rfl
@[simp] theorem State.setCommon_supplyGood (p : Port) (c : PortCommon) (s : State) : (s.setCommon p c).supplyGood = s.supplyGood := by cases p <;> rfl
@[simp] theorem State.setCommon_rstnHigh (p : Port) (c : PortCommon) (s : State) : (s.setCommon p c).rstnHigh = s.rstnHigh := by cases p <;> rfl
@[simp] theorem State.setCommon_clock (p : Port) (c : PortCommon) (s : State) : (s.setCommon p c).clock = s.clock := by cases p <;> rfl
@[simp] theorem State.setCommon_inputs (p : Port) (c : PortCommon) (s : State) : (s.setCommon p c).inputs = s.inputs := by cases p <;> rfl
@[simp] theorem State.setCommon_feedLines (p : Port) (c : PortCommon) (s : State) : (s.setCommon p c).feedLines = s.feedLines := by cases p <;> rfl
@[simp] theorem State.setCommon_slots (p : Port) (c : PortCommon) (s : State) : (s.setCommon p c).slots = s.slots := by cases p <;> rfl
@[simp] theorem State.setCommon_accumulators (p : Port) (c : PortCommon) (s : State) : (s.setCommon p c).accumulators = s.accumulators := by cases p <;> rfl
@[simp] theorem State.setCommon_counts (p : Port) (c : PortCommon) (s : State) : (s.setCommon p c).counts = s.counts := by cases p <;> rfl
@[simp] theorem State.setCommon_queue (p : Port) (c : PortCommon) (s : State) : (s.setCommon p c).queue = s.queue := by cases p <;> rfl
@[simp] theorem State.setCommon_accounts (p : Port) (c : PortCommon) (s : State) : (s.setCommon p c).accounts = s.accounts := by cases p <;> rfl
@[simp] theorem State.setCommon_channels (p : Port) (c : PortCommon) (s : State) : (s.setCommon p c).channels = s.channels := by cases p <;> rfl
@[simp] theorem State.setCommon_allowances (p : Port) (c : PortCommon) (s : State) : (s.setCommon p c).allowances = s.allowances := by cases p <;> rfl
@[simp] theorem State.setCommon_episodes (p : Port) (c : PortCommon) (s : State) : (s.setCommon p c).episodes = s.episodes := by cases p <;> rfl
@[simp] theorem State.setCommon_episodeCounter (p : Port) (c : PortCommon) (s : State) : (s.setCommon p c).episodeCounter = s.episodeCounter := by cases p <;> rfl
@[simp] theorem State.setCommon_inFlight (p : Port) (c : PortCommon) (s : State) : (s.setCommon p c).inFlight = s.inFlight := by cases p <;> rfl
@[simp] theorem State.setCommon_monitorHand (p : Port) (c : PortCommon) (s : State) : (s.setCommon p c).monitorHand = s.monitorHand := by cases p <;> rfl
@[simp] theorem State.setCommon_clockHand (p : Port) (c : PortCommon) (s : State) : (s.setCommon p c).clockHand = s.clockHand := by cases p <;> rfl
@[simp] theorem State.setCommon_handOrder (p : Port) (c : PortCommon) (s : State) : (s.setCommon p c).handOrder = s.handOrder := by cases p <;> rfl
@[simp] theorem State.setCommon_lastClaim (p : Port) (c : PortCommon) (s : State) : (s.setCommon p c).lastClaim = s.lastClaim := by cases p <;> rfl
@[simp] theorem State.setCommon_events (p : Port) (c : PortCommon) (s : State) : (s.setCommon p c).events = s.events := by cases p <;> rfl
@[simp] theorem State.setCommon_pending (p : Port) (c : PortCommon) (s : State) : (s.setCommon p c).pending = s.pending := by cases p <;> rfl

/-! ## State.setArea -/

@[simp] theorem State.setArea_now (p : Port) (a : RequestArea) (s : State) : (s.setArea p a).now = s.now := by cases p <;> rfl
@[simp] theorem State.setArea_part (p : Port) (a : RequestArea) (s : State) : (s.setArea p a).part = s.part := by cases p <;> rfl
@[simp] theorem State.setArea_supplyGood (p : Port) (a : RequestArea) (s : State) : (s.setArea p a).supplyGood = s.supplyGood := by cases p <;> rfl
@[simp] theorem State.setArea_rstnHigh (p : Port) (a : RequestArea) (s : State) : (s.setArea p a).rstnHigh = s.rstnHigh := by cases p <;> rfl
@[simp] theorem State.setArea_clock (p : Port) (a : RequestArea) (s : State) : (s.setArea p a).clock = s.clock := by cases p <;> rfl
@[simp] theorem State.setArea_inputs (p : Port) (a : RequestArea) (s : State) : (s.setArea p a).inputs = s.inputs := by cases p <;> rfl
@[simp] theorem State.setArea_feedLines (p : Port) (a : RequestArea) (s : State) : (s.setArea p a).feedLines = s.feedLines := by cases p <;> rfl
@[simp] theorem State.setArea_slots (p : Port) (a : RequestArea) (s : State) : (s.setArea p a).slots = s.slots := by cases p <;> rfl
@[simp] theorem State.setArea_accumulators (p : Port) (a : RequestArea) (s : State) : (s.setArea p a).accumulators = s.accumulators := by cases p <;> rfl
@[simp] theorem State.setArea_counts (p : Port) (a : RequestArea) (s : State) : (s.setArea p a).counts = s.counts := by cases p <;> rfl
@[simp] theorem State.setArea_queue (p : Port) (a : RequestArea) (s : State) : (s.setArea p a).queue = s.queue := by cases p <;> rfl
@[simp] theorem State.setArea_accounts (p : Port) (a : RequestArea) (s : State) : (s.setArea p a).accounts = s.accounts := by cases p <;> rfl
@[simp] theorem State.setArea_channels (p : Port) (a : RequestArea) (s : State) : (s.setArea p a).channels = s.channels := by cases p <;> rfl
@[simp] theorem State.setArea_allowances (p : Port) (a : RequestArea) (s : State) : (s.setArea p a).allowances = s.allowances := by cases p <;> rfl
@[simp] theorem State.setArea_episodes (p : Port) (a : RequestArea) (s : State) : (s.setArea p a).episodes = s.episodes := by cases p <;> rfl
@[simp] theorem State.setArea_episodeCounter (p : Port) (a : RequestArea) (s : State) : (s.setArea p a).episodeCounter = s.episodeCounter := by cases p <;> rfl
@[simp] theorem State.setArea_inFlight (p : Port) (a : RequestArea) (s : State) : (s.setArea p a).inFlight = s.inFlight := by cases p <;> rfl
@[simp] theorem State.setArea_monitorHand (p : Port) (a : RequestArea) (s : State) : (s.setArea p a).monitorHand = s.monitorHand := by cases p <;> rfl
@[simp] theorem State.setArea_clockHand (p : Port) (a : RequestArea) (s : State) : (s.setArea p a).clockHand = s.clockHand := by cases p <;> rfl
@[simp] theorem State.setArea_handOrder (p : Port) (a : RequestArea) (s : State) : (s.setArea p a).handOrder = s.handOrder := by cases p <;> rfl
@[simp] theorem State.setArea_lastClaim (p : Port) (a : RequestArea) (s : State) : (s.setArea p a).lastClaim = s.lastClaim := by cases p <;> rfl
@[simp] theorem State.setArea_events (p : Port) (a : RequestArea) (s : State) : (s.setArea p a).events = s.events := by cases p <;> rfl
@[simp] theorem State.setArea_pending (p : Port) (a : RequestArea) (s : State) : (s.setArea p a).pending = s.pending := by cases p <;> rfl

/-! ## setView -/

@[simp] theorem setView_now (p : Port) (v : Snapshot) (s : State) : (setView p v s).now = s.now := by cases p <;> rfl
@[simp] theorem setView_part (p : Port) (v : Snapshot) (s : State) : (setView p v s).part = s.part := by cases p <;> rfl
@[simp] theorem setView_supplyGood (p : Port) (v : Snapshot) (s : State) : (setView p v s).supplyGood = s.supplyGood := by cases p <;> rfl
@[simp] theorem setView_rstnHigh (p : Port) (v : Snapshot) (s : State) : (setView p v s).rstnHigh = s.rstnHigh := by cases p <;> rfl
@[simp] theorem setView_clock (p : Port) (v : Snapshot) (s : State) : (setView p v s).clock = s.clock := by cases p <;> rfl
@[simp] theorem setView_inputs (p : Port) (v : Snapshot) (s : State) : (setView p v s).inputs = s.inputs := by cases p <;> rfl
@[simp] theorem setView_feedLines (p : Port) (v : Snapshot) (s : State) : (setView p v s).feedLines = s.feedLines := by cases p <;> rfl
@[simp] theorem setView_slots (p : Port) (v : Snapshot) (s : State) : (setView p v s).slots = s.slots := by cases p <;> rfl
@[simp] theorem setView_accumulators (p : Port) (v : Snapshot) (s : State) : (setView p v s).accumulators = s.accumulators := by cases p <;> rfl
@[simp] theorem setView_counts (p : Port) (v : Snapshot) (s : State) : (setView p v s).counts = s.counts := by cases p <;> rfl
@[simp] theorem setView_queue (p : Port) (v : Snapshot) (s : State) : (setView p v s).queue = s.queue := by cases p <;> rfl
@[simp] theorem setView_accounts (p : Port) (v : Snapshot) (s : State) : (setView p v s).accounts = s.accounts := by cases p <;> rfl
@[simp] theorem setView_channels (p : Port) (v : Snapshot) (s : State) : (setView p v s).channels = s.channels := by cases p <;> rfl
@[simp] theorem setView_allowances (p : Port) (v : Snapshot) (s : State) : (setView p v s).allowances = s.allowances := by cases p <;> rfl
@[simp] theorem setView_episodes (p : Port) (v : Snapshot) (s : State) : (setView p v s).episodes = s.episodes := by cases p <;> rfl
@[simp] theorem setView_episodeCounter (p : Port) (v : Snapshot) (s : State) : (setView p v s).episodeCounter = s.episodeCounter := by cases p <;> rfl
@[simp] theorem setView_inFlight (p : Port) (v : Snapshot) (s : State) : (setView p v s).inFlight = s.inFlight := by cases p <;> rfl
@[simp] theorem setView_monitorHand (p : Port) (v : Snapshot) (s : State) : (setView p v s).monitorHand = s.monitorHand := by cases p <;> rfl
@[simp] theorem setView_clockHand (p : Port) (v : Snapshot) (s : State) : (setView p v s).clockHand = s.clockHand := by cases p <;> rfl
@[simp] theorem setView_handOrder (p : Port) (v : Snapshot) (s : State) : (setView p v s).handOrder = s.handOrder := by cases p <;> rfl
@[simp] theorem setView_lastClaim (p : Port) (v : Snapshot) (s : State) : (setView p v s).lastClaim = s.lastClaim := by cases p <;> rfl
@[simp] theorem setView_events (p : Port) (v : Snapshot) (s : State) : (setView p v s).events = s.events := by cases p <;> rfl
@[simp] theorem setView_pending (p : Port) (v : Snapshot) (s : State) : (setView p v s).pending = s.pending := by cases p <;> rfl

/-! ## complete -/

@[simp] theorem complete_now (p : Port) (b : Byte) (o : ReqOutcome) (l : List Word32) (s : State) : (complete p b o l s).now = s.now := by cases p <;> rfl
@[simp] theorem complete_part (p : Port) (b : Byte) (o : ReqOutcome) (l : List Word32) (s : State) : (complete p b o l s).part = s.part := by cases p <;> rfl
@[simp] theorem complete_supplyGood (p : Port) (b : Byte) (o : ReqOutcome) (l : List Word32) (s : State) : (complete p b o l s).supplyGood = s.supplyGood := by cases p <;> rfl
@[simp] theorem complete_rstnHigh (p : Port) (b : Byte) (o : ReqOutcome) (l : List Word32) (s : State) : (complete p b o l s).rstnHigh = s.rstnHigh := by cases p <;> rfl
@[simp] theorem complete_clock (p : Port) (b : Byte) (o : ReqOutcome) (l : List Word32) (s : State) : (complete p b o l s).clock = s.clock := by cases p <;> rfl
@[simp] theorem complete_inputs (p : Port) (b : Byte) (o : ReqOutcome) (l : List Word32) (s : State) : (complete p b o l s).inputs = s.inputs := by cases p <;> rfl
@[simp] theorem complete_feedLines (p : Port) (b : Byte) (o : ReqOutcome) (l : List Word32) (s : State) : (complete p b o l s).feedLines = s.feedLines := by cases p <;> rfl
@[simp] theorem complete_slots (p : Port) (b : Byte) (o : ReqOutcome) (l : List Word32) (s : State) : (complete p b o l s).slots = s.slots := by cases p <;> rfl
@[simp] theorem complete_accumulators (p : Port) (b : Byte) (o : ReqOutcome) (l : List Word32) (s : State) : (complete p b o l s).accumulators = s.accumulators := by cases p <;> rfl
@[simp] theorem complete_counts (p : Port) (b : Byte) (o : ReqOutcome) (l : List Word32) (s : State) : (complete p b o l s).counts = s.counts := by cases p <;> rfl
@[simp] theorem complete_queue (p : Port) (b : Byte) (o : ReqOutcome) (l : List Word32) (s : State) : (complete p b o l s).queue = s.queue := by cases p <;> rfl
@[simp] theorem complete_accounts (p : Port) (b : Byte) (o : ReqOutcome) (l : List Word32) (s : State) : (complete p b o l s).accounts = s.accounts := by cases p <;> rfl
@[simp] theorem complete_channels (p : Port) (b : Byte) (o : ReqOutcome) (l : List Word32) (s : State) : (complete p b o l s).channels = s.channels := by cases p <;> rfl
@[simp] theorem complete_allowances (p : Port) (b : Byte) (o : ReqOutcome) (l : List Word32) (s : State) : (complete p b o l s).allowances = s.allowances := by cases p <;> rfl
@[simp] theorem complete_episodes (p : Port) (b : Byte) (o : ReqOutcome) (l : List Word32) (s : State) : (complete p b o l s).episodes = s.episodes := by cases p <;> rfl
@[simp] theorem complete_episodeCounter (p : Port) (b : Byte) (o : ReqOutcome) (l : List Word32) (s : State) : (complete p b o l s).episodeCounter = s.episodeCounter := by cases p <;> rfl
@[simp] theorem complete_inFlight (p : Port) (b : Byte) (o : ReqOutcome) (l : List Word32) (s : State) : (complete p b o l s).inFlight = s.inFlight := by cases p <;> rfl
@[simp] theorem complete_monitorHand (p : Port) (b : Byte) (o : ReqOutcome) (l : List Word32) (s : State) : (complete p b o l s).monitorHand = s.monitorHand := by cases p <;> rfl
@[simp] theorem complete_clockHand (p : Port) (b : Byte) (o : ReqOutcome) (l : List Word32) (s : State) : (complete p b o l s).clockHand = s.clockHand := by cases p <;> rfl
@[simp] theorem complete_handOrder (p : Port) (b : Byte) (o : ReqOutcome) (l : List Word32) (s : State) : (complete p b o l s).handOrder = s.handOrder := by cases p <;> rfl
@[simp] theorem complete_lastClaim (p : Port) (b : Byte) (o : ReqOutcome) (l : List Word32) (s : State) : (complete p b o l s).lastClaim = s.lastClaim := by cases p <;> rfl
@[simp] theorem complete_pending (p : Port) (b : Byte) (o : ReqOutcome) (l : List Word32) (s : State) : (complete p b o l s).pending = s.pending := by cases p <;> rfl

/-! ## raiseEvent -/

@[simp] theorem raiseEvent_now (e : EventSource) (d : Nat) (s : State) : (raiseEvent e d s).now = s.now := by rfl
@[simp] theorem raiseEvent_part (e : EventSource) (d : Nat) (s : State) : (raiseEvent e d s).part = s.part := by rfl
@[simp] theorem raiseEvent_supplyGood (e : EventSource) (d : Nat) (s : State) : (raiseEvent e d s).supplyGood = s.supplyGood := by rfl
@[simp] theorem raiseEvent_rstnHigh (e : EventSource) (d : Nat) (s : State) : (raiseEvent e d s).rstnHigh = s.rstnHigh := by rfl
@[simp] theorem raiseEvent_clock (e : EventSource) (d : Nat) (s : State) : (raiseEvent e d s).clock = s.clock := by rfl
@[simp] theorem raiseEvent_inputs (e : EventSource) (d : Nat) (s : State) : (raiseEvent e d s).inputs = s.inputs := by rfl
@[simp] theorem raiseEvent_feedLines (e : EventSource) (d : Nat) (s : State) : (raiseEvent e d s).feedLines = s.feedLines := by rfl
@[simp] theorem raiseEvent_slots (e : EventSource) (d : Nat) (s : State) : (raiseEvent e d s).slots = s.slots := by rfl
@[simp] theorem raiseEvent_accumulators (e : EventSource) (d : Nat) (s : State) : (raiseEvent e d s).accumulators = s.accumulators := by rfl
@[simp] theorem raiseEvent_counts (e : EventSource) (d : Nat) (s : State) : (raiseEvent e d s).counts = s.counts := by rfl
@[simp] theorem raiseEvent_queue (e : EventSource) (d : Nat) (s : State) : (raiseEvent e d s).queue = s.queue := by rfl
@[simp] theorem raiseEvent_accounts (e : EventSource) (d : Nat) (s : State) : (raiseEvent e d s).accounts = s.accounts := by rfl
@[simp] theorem raiseEvent_channels (e : EventSource) (d : Nat) (s : State) : (raiseEvent e d s).channels = s.channels := by rfl
@[simp] theorem raiseEvent_allowances (e : EventSource) (d : Nat) (s : State) : (raiseEvent e d s).allowances = s.allowances := by rfl
@[simp] theorem raiseEvent_episodes (e : EventSource) (d : Nat) (s : State) : (raiseEvent e d s).episodes = s.episodes := by rfl
@[simp] theorem raiseEvent_episodeCounter (e : EventSource) (d : Nat) (s : State) : (raiseEvent e d s).episodeCounter = s.episodeCounter := by rfl
@[simp] theorem raiseEvent_inFlight (e : EventSource) (d : Nat) (s : State) : (raiseEvent e d s).inFlight = s.inFlight := by rfl
@[simp] theorem raiseEvent_monitorHand (e : EventSource) (d : Nat) (s : State) : (raiseEvent e d s).monitorHand = s.monitorHand := by rfl
@[simp] theorem raiseEvent_clockHand (e : EventSource) (d : Nat) (s : State) : (raiseEvent e d s).clockHand = s.clockHand := by rfl
@[simp] theorem raiseEvent_handOrder (e : EventSource) (d : Nat) (s : State) : (raiseEvent e d s).handOrder = s.handOrder := by rfl
@[simp] theorem raiseEvent_lastClaim (e : EventSource) (d : Nat) (s : State) : (raiseEvent e d s).lastClaim = s.lastClaim := by rfl
@[simp] theorem raiseEvent_portA (e : EventSource) (d : Nat) (s : State) : (raiseEvent e d s).portA = s.portA := by rfl
@[simp] theorem raiseEvent_portB (e : EventSource) (d : Nat) (s : State) : (raiseEvent e d s).portB = s.portB := by rfl
@[simp] theorem raiseEvent_pending (e : EventSource) (d : Nat) (s : State) : (raiseEvent e d s).pending = s.pending := by rfl

/-! ## takeUp -/

@[simp] theorem takeUp_now (o : Owner) (s : State) : (takeUp o s).now = s.now := by cases o <;> rfl
@[simp] theorem takeUp_part (o : Owner) (s : State) : (takeUp o s).part = s.part := by cases o <;> rfl
@[simp] theorem takeUp_supplyGood (o : Owner) (s : State) : (takeUp o s).supplyGood = s.supplyGood := by cases o <;> rfl
@[simp] theorem takeUp_rstnHigh (o : Owner) (s : State) : (takeUp o s).rstnHigh = s.rstnHigh := by cases o <;> rfl
@[simp] theorem takeUp_clock (o : Owner) (s : State) : (takeUp o s).clock = s.clock := by cases o <;> rfl
@[simp] theorem takeUp_inputs (o : Owner) (s : State) : (takeUp o s).inputs = s.inputs := by cases o <;> rfl
@[simp] theorem takeUp_feedLines (o : Owner) (s : State) : (takeUp o s).feedLines = s.feedLines := by cases o <;> rfl
@[simp] theorem takeUp_slots (o : Owner) (s : State) : (takeUp o s).slots = s.slots := by cases o <;> rfl
@[simp] theorem takeUp_accumulators (o : Owner) (s : State) : (takeUp o s).accumulators = s.accumulators := by cases o <;> rfl
@[simp] theorem takeUp_counts (o : Owner) (s : State) : (takeUp o s).counts = s.counts := by cases o <;> rfl
@[simp] theorem takeUp_queue (o : Owner) (s : State) : (takeUp o s).queue = s.queue := by cases o <;> rfl
@[simp] theorem takeUp_accounts (o : Owner) (s : State) : (takeUp o s).accounts = s.accounts := by cases o <;> rfl
@[simp] theorem takeUp_channels (o : Owner) (s : State) : (takeUp o s).channels = s.channels := by cases o <;> rfl
@[simp] theorem takeUp_allowances (o : Owner) (s : State) : (takeUp o s).allowances = s.allowances := by cases o <;> rfl
@[simp] theorem takeUp_episodes (o : Owner) (s : State) : (takeUp o s).episodes = s.episodes := by cases o <;> rfl
@[simp] theorem takeUp_episodeCounter (o : Owner) (s : State) : (takeUp o s).episodeCounter = s.episodeCounter := by cases o <;> rfl
@[simp] theorem takeUp_portA (o : Owner) (s : State) : (takeUp o s).portA = s.portA := by cases o <;> rfl
@[simp] theorem takeUp_portB (o : Owner) (s : State) : (takeUp o s).portB = s.portB := by cases o <;> rfl
@[simp] theorem takeUp_events (o : Owner) (s : State) : (takeUp o s).events = s.events := by cases o <;> rfl
@[simp] theorem takeUp_pending (o : Owner) (s : State) : (takeUp o s).pending = s.pending := by cases o <;> rfl
@[simp] theorem takeUp_lastClaim (o : Owner) (s : State) : (takeUp o s).lastClaim = s.lastClaim := by cases o <;> rfl

/-! ## release -/

@[simp] theorem release_now (o : Owner) (s : State) : (release o s).now = s.now := by cases o <;> rfl
@[simp] theorem release_part (o : Owner) (s : State) : (release o s).part = s.part := by cases o <;> rfl
@[simp] theorem release_supplyGood (o : Owner) (s : State) : (release o s).supplyGood = s.supplyGood := by cases o <;> rfl
@[simp] theorem release_rstnHigh (o : Owner) (s : State) : (release o s).rstnHigh = s.rstnHigh := by cases o <;> rfl
@[simp] theorem release_clock (o : Owner) (s : State) : (release o s).clock = s.clock := by cases o <;> rfl
@[simp] theorem release_inputs (o : Owner) (s : State) : (release o s).inputs = s.inputs := by cases o <;> rfl
@[simp] theorem release_feedLines (o : Owner) (s : State) : (release o s).feedLines = s.feedLines := by cases o <;> rfl
@[simp] theorem release_slots (o : Owner) (s : State) : (release o s).slots = s.slots := by cases o <;> rfl
@[simp] theorem release_accumulators (o : Owner) (s : State) : (release o s).accumulators = s.accumulators := by cases o <;> rfl
@[simp] theorem release_counts (o : Owner) (s : State) : (release o s).counts = s.counts := by cases o <;> rfl
@[simp] theorem release_queue (o : Owner) (s : State) : (release o s).queue = s.queue := by cases o <;> rfl
@[simp] theorem release_accounts (o : Owner) (s : State) : (release o s).accounts = s.accounts := by cases o <;> rfl
@[simp] theorem release_channels (o : Owner) (s : State) : (release o s).channels = s.channels := by cases o <;> rfl
@[simp] theorem release_allowances (o : Owner) (s : State) : (release o s).allowances = s.allowances := by cases o <;> rfl
@[simp] theorem release_episodes (o : Owner) (s : State) : (release o s).episodes = s.episodes := by cases o <;> rfl
@[simp] theorem release_episodeCounter (o : Owner) (s : State) : (release o s).episodeCounter = s.episodeCounter := by cases o <;> rfl
@[simp] theorem release_portA (o : Owner) (s : State) : (release o s).portA = s.portA := by cases o <;> rfl
@[simp] theorem release_portB (o : Owner) (s : State) : (release o s).portB = s.portB := by cases o <;> rfl
@[simp] theorem release_events (o : Owner) (s : State) : (release o s).events = s.events := by cases o <;> rfl
@[simp] theorem release_pending (o : Owner) (s : State) : (release o s).pending = s.pending := by cases o <;> rfl

/-! ## finish -/

@[simp] theorem finish_now (o : Owner) (s : State) : (finish o s).now = s.now := by cases o <;> rfl
@[simp] theorem finish_part (o : Owner) (s : State) : (finish o s).part = s.part := by cases o <;> rfl
@[simp] theorem finish_supplyGood (o : Owner) (s : State) : (finish o s).supplyGood = s.supplyGood := by cases o <;> rfl
@[simp] theorem finish_rstnHigh (o : Owner) (s : State) : (finish o s).rstnHigh = s.rstnHigh := by cases o <;> rfl
@[simp] theorem finish_clock (o : Owner) (s : State) : (finish o s).clock = s.clock := by cases o <;> rfl
@[simp] theorem finish_inputs (o : Owner) (s : State) : (finish o s).inputs = s.inputs := by cases o <;> rfl
@[simp] theorem finish_feedLines (o : Owner) (s : State) : (finish o s).feedLines = s.feedLines := by cases o <;> rfl
@[simp] theorem finish_slots (o : Owner) (s : State) : (finish o s).slots = s.slots := by cases o <;> rfl
@[simp] theorem finish_accumulators (o : Owner) (s : State) : (finish o s).accumulators = s.accumulators := by cases o <;> rfl
@[simp] theorem finish_counts (o : Owner) (s : State) : (finish o s).counts = s.counts := by cases o <;> rfl
@[simp] theorem finish_queue (o : Owner) (s : State) : (finish o s).queue = s.queue := by cases o <;> rfl
@[simp] theorem finish_accounts (o : Owner) (s : State) : (finish o s).accounts = s.accounts := by cases o <;> rfl
@[simp] theorem finish_channels (o : Owner) (s : State) : (finish o s).channels = s.channels := by cases o <;> rfl
@[simp] theorem finish_allowances (o : Owner) (s : State) : (finish o s).allowances = s.allowances := by cases o <;> rfl
@[simp] theorem finish_episodes (o : Owner) (s : State) : (finish o s).episodes = s.episodes := by cases o <;> rfl
@[simp] theorem finish_episodeCounter (o : Owner) (s : State) : (finish o s).episodeCounter = s.episodeCounter := by cases o <;> rfl
@[simp] theorem finish_portA (o : Owner) (s : State) : (finish o s).portA = s.portA := by cases o <;> rfl
@[simp] theorem finish_portB (o : Owner) (s : State) : (finish o s).portB = s.portB := by cases o <;> rfl
@[simp] theorem finish_events (o : Owner) (s : State) : (finish o s).events = s.events := by cases o <;> rfl
@[simp] theorem finish_pending (o : Owner) (s : State) : (finish o s).pending = s.pending := by cases o <;> rfl

/-! ## removeHead -/

@[simp] theorem removeHead_now (s : State) : (removeHead s).now = s.now := by rfl
@[simp] theorem removeHead_part (s : State) : (removeHead s).part = s.part := by rfl
@[simp] theorem removeHead_supplyGood (s : State) : (removeHead s).supplyGood = s.supplyGood := by rfl
@[simp] theorem removeHead_rstnHigh (s : State) : (removeHead s).rstnHigh = s.rstnHigh := by rfl
@[simp] theorem removeHead_clock (s : State) : (removeHead s).clock = s.clock := by rfl
@[simp] theorem removeHead_inputs (s : State) : (removeHead s).inputs = s.inputs := by rfl
@[simp] theorem removeHead_feedLines (s : State) : (removeHead s).feedLines = s.feedLines := by rfl
@[simp] theorem removeHead_slots (s : State) : (removeHead s).slots = s.slots := by rfl
@[simp] theorem removeHead_accumulators (s : State) : (removeHead s).accumulators = s.accumulators := by rfl
@[simp] theorem removeHead_counts (s : State) : (removeHead s).counts = s.counts := by rfl
@[simp] theorem removeHead_accounts (s : State) : (removeHead s).accounts = s.accounts := by rfl
@[simp] theorem removeHead_channels (s : State) : (removeHead s).channels = s.channels := by rfl
@[simp] theorem removeHead_allowances (s : State) : (removeHead s).allowances = s.allowances := by rfl
@[simp] theorem removeHead_episodes (s : State) : (removeHead s).episodes = s.episodes := by rfl
@[simp] theorem removeHead_episodeCounter (s : State) : (removeHead s).episodeCounter = s.episodeCounter := by rfl
@[simp] theorem removeHead_portA (s : State) : (removeHead s).portA = s.portA := by rfl
@[simp] theorem removeHead_portB (s : State) : (removeHead s).portB = s.portB := by rfl
@[simp] theorem removeHead_monitorHand (s : State) : (removeHead s).monitorHand = s.monitorHand := by rfl
@[simp] theorem removeHead_clockHand (s : State) : (removeHead s).clockHand = s.clockHand := by rfl
@[simp] theorem removeHead_events (s : State) : (removeHead s).events = s.events := by rfl
@[simp] theorem removeHead_pending (s : State) : (removeHead s).pending = s.pending := by rfl

/-! ## State.setAccount -/

@[simp] theorem State.setAccount_now (i : SlotNo) (a : Account) (s : State) : (s.setAccount i a).now = s.now := by rfl
@[simp] theorem State.setAccount_part (i : SlotNo) (a : Account) (s : State) : (s.setAccount i a).part = s.part := by rfl
@[simp] theorem State.setAccount_supplyGood (i : SlotNo) (a : Account) (s : State) : (s.setAccount i a).supplyGood = s.supplyGood := by rfl
@[simp] theorem State.setAccount_rstnHigh (i : SlotNo) (a : Account) (s : State) : (s.setAccount i a).rstnHigh = s.rstnHigh := by rfl
@[simp] theorem State.setAccount_clock (i : SlotNo) (a : Account) (s : State) : (s.setAccount i a).clock = s.clock := by rfl
@[simp] theorem State.setAccount_inputs (i : SlotNo) (a : Account) (s : State) : (s.setAccount i a).inputs = s.inputs := by rfl
@[simp] theorem State.setAccount_feedLines (i : SlotNo) (a : Account) (s : State) : (s.setAccount i a).feedLines = s.feedLines := by rfl
@[simp] theorem State.setAccount_slots (i : SlotNo) (a : Account) (s : State) : (s.setAccount i a).slots = s.slots := by rfl
@[simp] theorem State.setAccount_accumulators (i : SlotNo) (a : Account) (s : State) : (s.setAccount i a).accumulators = s.accumulators := by rfl
@[simp] theorem State.setAccount_counts (i : SlotNo) (a : Account) (s : State) : (s.setAccount i a).counts = s.counts := by rfl
@[simp] theorem State.setAccount_queue (i : SlotNo) (a : Account) (s : State) : (s.setAccount i a).queue = s.queue := by rfl
@[simp] theorem State.setAccount_channels (i : SlotNo) (a : Account) (s : State) : (s.setAccount i a).channels = s.channels := by rfl
@[simp] theorem State.setAccount_allowances (i : SlotNo) (a : Account) (s : State) : (s.setAccount i a).allowances = s.allowances := by rfl
@[simp] theorem State.setAccount_episodes (i : SlotNo) (a : Account) (s : State) : (s.setAccount i a).episodes = s.episodes := by rfl
@[simp] theorem State.setAccount_episodeCounter (i : SlotNo) (a : Account) (s : State) : (s.setAccount i a).episodeCounter = s.episodeCounter := by rfl
@[simp] theorem State.setAccount_inFlight (i : SlotNo) (a : Account) (s : State) : (s.setAccount i a).inFlight = s.inFlight := by rfl
@[simp] theorem State.setAccount_monitorHand (i : SlotNo) (a : Account) (s : State) : (s.setAccount i a).monitorHand = s.monitorHand := by rfl
@[simp] theorem State.setAccount_clockHand (i : SlotNo) (a : Account) (s : State) : (s.setAccount i a).clockHand = s.clockHand := by rfl
@[simp] theorem State.setAccount_handOrder (i : SlotNo) (a : Account) (s : State) : (s.setAccount i a).handOrder = s.handOrder := by rfl
@[simp] theorem State.setAccount_lastClaim (i : SlotNo) (a : Account) (s : State) : (s.setAccount i a).lastClaim = s.lastClaim := by rfl
@[simp] theorem State.setAccount_portA (i : SlotNo) (a : Account) (s : State) : (s.setAccount i a).portA = s.portA := by rfl
@[simp] theorem State.setAccount_portB (i : SlotNo) (a : Account) (s : State) : (s.setAccount i a).portB = s.portB := by rfl
@[simp] theorem State.setAccount_events (i : SlotNo) (a : Account) (s : State) : (s.setAccount i a).events = s.events := by rfl
@[simp] theorem State.setAccount_pending (i : SlotNo) (a : Account) (s : State) : (s.setAccount i a).pending = s.pending := by rfl

/-! ## State.updCurrent -/

@[simp] theorem State.updCurrent_now (i : SlotNo) (f : CurrentSide → CurrentSide) (s : State) : (s.updCurrent i f).now = s.now := by rfl
@[simp] theorem State.updCurrent_part (i : SlotNo) (f : CurrentSide → CurrentSide) (s : State) : (s.updCurrent i f).part = s.part := by rfl
@[simp] theorem State.updCurrent_supplyGood (i : SlotNo) (f : CurrentSide → CurrentSide) (s : State) : (s.updCurrent i f).supplyGood = s.supplyGood := by rfl
@[simp] theorem State.updCurrent_rstnHigh (i : SlotNo) (f : CurrentSide → CurrentSide) (s : State) : (s.updCurrent i f).rstnHigh = s.rstnHigh := by rfl
@[simp] theorem State.updCurrent_clock (i : SlotNo) (f : CurrentSide → CurrentSide) (s : State) : (s.updCurrent i f).clock = s.clock := by rfl
@[simp] theorem State.updCurrent_inputs (i : SlotNo) (f : CurrentSide → CurrentSide) (s : State) : (s.updCurrent i f).inputs = s.inputs := by rfl
@[simp] theorem State.updCurrent_feedLines (i : SlotNo) (f : CurrentSide → CurrentSide) (s : State) : (s.updCurrent i f).feedLines = s.feedLines := by rfl
@[simp] theorem State.updCurrent_slots (i : SlotNo) (f : CurrentSide → CurrentSide) (s : State) : (s.updCurrent i f).slots = s.slots := by rfl
@[simp] theorem State.updCurrent_accumulators (i : SlotNo) (f : CurrentSide → CurrentSide) (s : State) : (s.updCurrent i f).accumulators = s.accumulators := by rfl
@[simp] theorem State.updCurrent_counts (i : SlotNo) (f : CurrentSide → CurrentSide) (s : State) : (s.updCurrent i f).counts = s.counts := by rfl
@[simp] theorem State.updCurrent_queue (i : SlotNo) (f : CurrentSide → CurrentSide) (s : State) : (s.updCurrent i f).queue = s.queue := by rfl
@[simp] theorem State.updCurrent_channels (i : SlotNo) (f : CurrentSide → CurrentSide) (s : State) : (s.updCurrent i f).channels = s.channels := by rfl
@[simp] theorem State.updCurrent_allowances (i : SlotNo) (f : CurrentSide → CurrentSide) (s : State) : (s.updCurrent i f).allowances = s.allowances := by rfl
@[simp] theorem State.updCurrent_episodes (i : SlotNo) (f : CurrentSide → CurrentSide) (s : State) : (s.updCurrent i f).episodes = s.episodes := by rfl
@[simp] theorem State.updCurrent_episodeCounter (i : SlotNo) (f : CurrentSide → CurrentSide) (s : State) : (s.updCurrent i f).episodeCounter = s.episodeCounter := by rfl
@[simp] theorem State.updCurrent_inFlight (i : SlotNo) (f : CurrentSide → CurrentSide) (s : State) : (s.updCurrent i f).inFlight = s.inFlight := by rfl
@[simp] theorem State.updCurrent_monitorHand (i : SlotNo) (f : CurrentSide → CurrentSide) (s : State) : (s.updCurrent i f).monitorHand = s.monitorHand := by rfl
@[simp] theorem State.updCurrent_clockHand (i : SlotNo) (f : CurrentSide → CurrentSide) (s : State) : (s.updCurrent i f).clockHand = s.clockHand := by rfl
@[simp] theorem State.updCurrent_handOrder (i : SlotNo) (f : CurrentSide → CurrentSide) (s : State) : (s.updCurrent i f).handOrder = s.handOrder := by rfl
@[simp] theorem State.updCurrent_lastClaim (i : SlotNo) (f : CurrentSide → CurrentSide) (s : State) : (s.updCurrent i f).lastClaim = s.lastClaim := by rfl
@[simp] theorem State.updCurrent_portA (i : SlotNo) (f : CurrentSide → CurrentSide) (s : State) : (s.updCurrent i f).portA = s.portA := by rfl
@[simp] theorem State.updCurrent_portB (i : SlotNo) (f : CurrentSide → CurrentSide) (s : State) : (s.updCurrent i f).portB = s.portB := by rfl
@[simp] theorem State.updCurrent_events (i : SlotNo) (f : CurrentSide → CurrentSide) (s : State) : (s.updCurrent i f).events = s.events := by rfl
@[simp] theorem State.updCurrent_pending (i : SlotNo) (f : CurrentSide → CurrentSide) (s : State) : (s.updCurrent i f).pending = s.pending := by rfl

/-! ## State.setChannel -/

@[simp] theorem State.setChannel_now (c : ChannelNo) (r : Channel) (s : State) : (s.setChannel c r).now = s.now := by rfl
@[simp] theorem State.setChannel_part (c : ChannelNo) (r : Channel) (s : State) : (s.setChannel c r).part = s.part := by rfl
@[simp] theorem State.setChannel_supplyGood (c : ChannelNo) (r : Channel) (s : State) : (s.setChannel c r).supplyGood = s.supplyGood := by rfl
@[simp] theorem State.setChannel_rstnHigh (c : ChannelNo) (r : Channel) (s : State) : (s.setChannel c r).rstnHigh = s.rstnHigh := by rfl
@[simp] theorem State.setChannel_clock (c : ChannelNo) (r : Channel) (s : State) : (s.setChannel c r).clock = s.clock := by rfl
@[simp] theorem State.setChannel_inputs (c : ChannelNo) (r : Channel) (s : State) : (s.setChannel c r).inputs = s.inputs := by rfl
@[simp] theorem State.setChannel_feedLines (c : ChannelNo) (r : Channel) (s : State) : (s.setChannel c r).feedLines = s.feedLines := by rfl
@[simp] theorem State.setChannel_slots (c : ChannelNo) (r : Channel) (s : State) : (s.setChannel c r).slots = s.slots := by rfl
@[simp] theorem State.setChannel_accumulators (c : ChannelNo) (r : Channel) (s : State) : (s.setChannel c r).accumulators = s.accumulators := by rfl
@[simp] theorem State.setChannel_counts (c : ChannelNo) (r : Channel) (s : State) : (s.setChannel c r).counts = s.counts := by rfl
@[simp] theorem State.setChannel_queue (c : ChannelNo) (r : Channel) (s : State) : (s.setChannel c r).queue = s.queue := by rfl
@[simp] theorem State.setChannel_accounts (c : ChannelNo) (r : Channel) (s : State) : (s.setChannel c r).accounts = s.accounts := by rfl
@[simp] theorem State.setChannel_allowances (c : ChannelNo) (r : Channel) (s : State) : (s.setChannel c r).allowances = s.allowances := by rfl
@[simp] theorem State.setChannel_episodes (c : ChannelNo) (r : Channel) (s : State) : (s.setChannel c r).episodes = s.episodes := by rfl
@[simp] theorem State.setChannel_episodeCounter (c : ChannelNo) (r : Channel) (s : State) : (s.setChannel c r).episodeCounter = s.episodeCounter := by rfl
@[simp] theorem State.setChannel_inFlight (c : ChannelNo) (r : Channel) (s : State) : (s.setChannel c r).inFlight = s.inFlight := by rfl
@[simp] theorem State.setChannel_monitorHand (c : ChannelNo) (r : Channel) (s : State) : (s.setChannel c r).monitorHand = s.monitorHand := by rfl
@[simp] theorem State.setChannel_clockHand (c : ChannelNo) (r : Channel) (s : State) : (s.setChannel c r).clockHand = s.clockHand := by rfl
@[simp] theorem State.setChannel_handOrder (c : ChannelNo) (r : Channel) (s : State) : (s.setChannel c r).handOrder = s.handOrder := by rfl
@[simp] theorem State.setChannel_lastClaim (c : ChannelNo) (r : Channel) (s : State) : (s.setChannel c r).lastClaim = s.lastClaim := by rfl
@[simp] theorem State.setChannel_portA (c : ChannelNo) (r : Channel) (s : State) : (s.setChannel c r).portA = s.portA := by rfl
@[simp] theorem State.setChannel_portB (c : ChannelNo) (r : Channel) (s : State) : (s.setChannel c r).portB = s.portB := by rfl
@[simp] theorem State.setChannel_events (c : ChannelNo) (r : Channel) (s : State) : (s.setChannel c r).events = s.events := by rfl
@[simp] theorem State.setChannel_pending (c : ChannelNo) (r : Channel) (s : State) : (s.setChannel c r).pending = s.pending := by rfl

/-! ## State.setLink -/

@[simp] theorem State.setLink_now (c : ChannelNo) (l : Option SlotNo) (s : State) : (s.setLink c l).now = s.now := by rfl
@[simp] theorem State.setLink_part (c : ChannelNo) (l : Option SlotNo) (s : State) : (s.setLink c l).part = s.part := by rfl
@[simp] theorem State.setLink_supplyGood (c : ChannelNo) (l : Option SlotNo) (s : State) : (s.setLink c l).supplyGood = s.supplyGood := by rfl
@[simp] theorem State.setLink_rstnHigh (c : ChannelNo) (l : Option SlotNo) (s : State) : (s.setLink c l).rstnHigh = s.rstnHigh := by rfl
@[simp] theorem State.setLink_clock (c : ChannelNo) (l : Option SlotNo) (s : State) : (s.setLink c l).clock = s.clock := by rfl
@[simp] theorem State.setLink_inputs (c : ChannelNo) (l : Option SlotNo) (s : State) : (s.setLink c l).inputs = s.inputs := by rfl
@[simp] theorem State.setLink_feedLines (c : ChannelNo) (l : Option SlotNo) (s : State) : (s.setLink c l).feedLines = s.feedLines := by rfl
@[simp] theorem State.setLink_slots (c : ChannelNo) (l : Option SlotNo) (s : State) : (s.setLink c l).slots = s.slots := by rfl
@[simp] theorem State.setLink_accumulators (c : ChannelNo) (l : Option SlotNo) (s : State) : (s.setLink c l).accumulators = s.accumulators := by rfl
@[simp] theorem State.setLink_counts (c : ChannelNo) (l : Option SlotNo) (s : State) : (s.setLink c l).counts = s.counts := by rfl
@[simp] theorem State.setLink_queue (c : ChannelNo) (l : Option SlotNo) (s : State) : (s.setLink c l).queue = s.queue := by rfl
@[simp] theorem State.setLink_accounts (c : ChannelNo) (l : Option SlotNo) (s : State) : (s.setLink c l).accounts = s.accounts := by rfl
@[simp] theorem State.setLink_allowances (c : ChannelNo) (l : Option SlotNo) (s : State) : (s.setLink c l).allowances = s.allowances := by rfl
@[simp] theorem State.setLink_episodes (c : ChannelNo) (l : Option SlotNo) (s : State) : (s.setLink c l).episodes = s.episodes := by rfl
@[simp] theorem State.setLink_episodeCounter (c : ChannelNo) (l : Option SlotNo) (s : State) : (s.setLink c l).episodeCounter = s.episodeCounter := by rfl
@[simp] theorem State.setLink_inFlight (c : ChannelNo) (l : Option SlotNo) (s : State) : (s.setLink c l).inFlight = s.inFlight := by rfl
@[simp] theorem State.setLink_monitorHand (c : ChannelNo) (l : Option SlotNo) (s : State) : (s.setLink c l).monitorHand = s.monitorHand := by rfl
@[simp] theorem State.setLink_clockHand (c : ChannelNo) (l : Option SlotNo) (s : State) : (s.setLink c l).clockHand = s.clockHand := by rfl
@[simp] theorem State.setLink_handOrder (c : ChannelNo) (l : Option SlotNo) (s : State) : (s.setLink c l).handOrder = s.handOrder := by rfl
@[simp] theorem State.setLink_lastClaim (c : ChannelNo) (l : Option SlotNo) (s : State) : (s.setLink c l).lastClaim = s.lastClaim := by rfl
@[simp] theorem State.setLink_portA (c : ChannelNo) (l : Option SlotNo) (s : State) : (s.setLink c l).portA = s.portA := by rfl
@[simp] theorem State.setLink_portB (c : ChannelNo) (l : Option SlotNo) (s : State) : (s.setLink c l).portB = s.portB := by rfl
@[simp] theorem State.setLink_events (c : ChannelNo) (l : Option SlotNo) (s : State) : (s.setLink c l).events = s.events := by rfl
@[simp] theorem State.setLink_pending (c : ChannelNo) (l : Option SlotNo) (s : State) : (s.setLink c l).pending = s.pending := by rfl

/-! ## State.setLinkOf -/

@[simp] theorem State.setLinkOf_now (c : Option ChannelNo) (l : Option SlotNo) (s : State) : (s.setLinkOf c l).now = s.now := by cases c <;> rfl
@[simp] theorem State.setLinkOf_part (c : Option ChannelNo) (l : Option SlotNo) (s : State) : (s.setLinkOf c l).part = s.part := by cases c <;> rfl
@[simp] theorem State.setLinkOf_supplyGood (c : Option ChannelNo) (l : Option SlotNo) (s : State) : (s.setLinkOf c l).supplyGood = s.supplyGood := by cases c <;> rfl
@[simp] theorem State.setLinkOf_rstnHigh (c : Option ChannelNo) (l : Option SlotNo) (s : State) : (s.setLinkOf c l).rstnHigh = s.rstnHigh := by cases c <;> rfl
@[simp] theorem State.setLinkOf_clock (c : Option ChannelNo) (l : Option SlotNo) (s : State) : (s.setLinkOf c l).clock = s.clock := by cases c <;> rfl
@[simp] theorem State.setLinkOf_inputs (c : Option ChannelNo) (l : Option SlotNo) (s : State) : (s.setLinkOf c l).inputs = s.inputs := by cases c <;> rfl
@[simp] theorem State.setLinkOf_feedLines (c : Option ChannelNo) (l : Option SlotNo) (s : State) : (s.setLinkOf c l).feedLines = s.feedLines := by cases c <;> rfl
@[simp] theorem State.setLinkOf_slots (c : Option ChannelNo) (l : Option SlotNo) (s : State) : (s.setLinkOf c l).slots = s.slots := by cases c <;> rfl
@[simp] theorem State.setLinkOf_accumulators (c : Option ChannelNo) (l : Option SlotNo) (s : State) : (s.setLinkOf c l).accumulators = s.accumulators := by cases c <;> rfl
@[simp] theorem State.setLinkOf_counts (c : Option ChannelNo) (l : Option SlotNo) (s : State) : (s.setLinkOf c l).counts = s.counts := by cases c <;> rfl
@[simp] theorem State.setLinkOf_queue (c : Option ChannelNo) (l : Option SlotNo) (s : State) : (s.setLinkOf c l).queue = s.queue := by cases c <;> rfl
@[simp] theorem State.setLinkOf_accounts (c : Option ChannelNo) (l : Option SlotNo) (s : State) : (s.setLinkOf c l).accounts = s.accounts := by cases c <;> rfl
@[simp] theorem State.setLinkOf_allowances (c : Option ChannelNo) (l : Option SlotNo) (s : State) : (s.setLinkOf c l).allowances = s.allowances := by cases c <;> rfl
@[simp] theorem State.setLinkOf_episodes (c : Option ChannelNo) (l : Option SlotNo) (s : State) : (s.setLinkOf c l).episodes = s.episodes := by cases c <;> rfl
@[simp] theorem State.setLinkOf_episodeCounter (c : Option ChannelNo) (l : Option SlotNo) (s : State) : (s.setLinkOf c l).episodeCounter = s.episodeCounter := by cases c <;> rfl
@[simp] theorem State.setLinkOf_inFlight (c : Option ChannelNo) (l : Option SlotNo) (s : State) : (s.setLinkOf c l).inFlight = s.inFlight := by cases c <;> rfl
@[simp] theorem State.setLinkOf_monitorHand (c : Option ChannelNo) (l : Option SlotNo) (s : State) : (s.setLinkOf c l).monitorHand = s.monitorHand := by cases c <;> rfl
@[simp] theorem State.setLinkOf_clockHand (c : Option ChannelNo) (l : Option SlotNo) (s : State) : (s.setLinkOf c l).clockHand = s.clockHand := by cases c <;> rfl
@[simp] theorem State.setLinkOf_handOrder (c : Option ChannelNo) (l : Option SlotNo) (s : State) : (s.setLinkOf c l).handOrder = s.handOrder := by cases c <;> rfl
@[simp] theorem State.setLinkOf_lastClaim (c : Option ChannelNo) (l : Option SlotNo) (s : State) : (s.setLinkOf c l).lastClaim = s.lastClaim := by cases c <;> rfl
@[simp] theorem State.setLinkOf_portA (c : Option ChannelNo) (l : Option SlotNo) (s : State) : (s.setLinkOf c l).portA = s.portA := by cases c <;> rfl
@[simp] theorem State.setLinkOf_portB (c : Option ChannelNo) (l : Option SlotNo) (s : State) : (s.setLinkOf c l).portB = s.portB := by cases c <;> rfl
@[simp] theorem State.setLinkOf_events (c : Option ChannelNo) (l : Option SlotNo) (s : State) : (s.setLinkOf c l).events = s.events := by cases c <;> rfl
@[simp] theorem State.setLinkOf_pending (c : Option ChannelNo) (l : Option SlotNo) (s : State) : (s.setLinkOf c l).pending = s.pending := by cases c <;> rfl

/-! ## State.setAllowance -/

@[simp] theorem State.setAllowance_now (i : StackNo) (r : StackAllowance) (s : State) : (s.setAllowance i r).now = s.now := by rfl
@[simp] theorem State.setAllowance_part (i : StackNo) (r : StackAllowance) (s : State) : (s.setAllowance i r).part = s.part := by rfl
@[simp] theorem State.setAllowance_supplyGood (i : StackNo) (r : StackAllowance) (s : State) : (s.setAllowance i r).supplyGood = s.supplyGood := by rfl
@[simp] theorem State.setAllowance_rstnHigh (i : StackNo) (r : StackAllowance) (s : State) : (s.setAllowance i r).rstnHigh = s.rstnHigh := by rfl
@[simp] theorem State.setAllowance_clock (i : StackNo) (r : StackAllowance) (s : State) : (s.setAllowance i r).clock = s.clock := by rfl
@[simp] theorem State.setAllowance_inputs (i : StackNo) (r : StackAllowance) (s : State) : (s.setAllowance i r).inputs = s.inputs := by rfl
@[simp] theorem State.setAllowance_feedLines (i : StackNo) (r : StackAllowance) (s : State) : (s.setAllowance i r).feedLines = s.feedLines := by rfl
@[simp] theorem State.setAllowance_slots (i : StackNo) (r : StackAllowance) (s : State) : (s.setAllowance i r).slots = s.slots := by rfl
@[simp] theorem State.setAllowance_accumulators (i : StackNo) (r : StackAllowance) (s : State) : (s.setAllowance i r).accumulators = s.accumulators := by rfl
@[simp] theorem State.setAllowance_counts (i : StackNo) (r : StackAllowance) (s : State) : (s.setAllowance i r).counts = s.counts := by rfl
@[simp] theorem State.setAllowance_queue (i : StackNo) (r : StackAllowance) (s : State) : (s.setAllowance i r).queue = s.queue := by rfl
@[simp] theorem State.setAllowance_accounts (i : StackNo) (r : StackAllowance) (s : State) : (s.setAllowance i r).accounts = s.accounts := by rfl
@[simp] theorem State.setAllowance_channels (i : StackNo) (r : StackAllowance) (s : State) : (s.setAllowance i r).channels = s.channels := by rfl
@[simp] theorem State.setAllowance_episodes (i : StackNo) (r : StackAllowance) (s : State) : (s.setAllowance i r).episodes = s.episodes := by rfl
@[simp] theorem State.setAllowance_episodeCounter (i : StackNo) (r : StackAllowance) (s : State) : (s.setAllowance i r).episodeCounter = s.episodeCounter := by rfl
@[simp] theorem State.setAllowance_inFlight (i : StackNo) (r : StackAllowance) (s : State) : (s.setAllowance i r).inFlight = s.inFlight := by rfl
@[simp] theorem State.setAllowance_monitorHand (i : StackNo) (r : StackAllowance) (s : State) : (s.setAllowance i r).monitorHand = s.monitorHand := by rfl
@[simp] theorem State.setAllowance_clockHand (i : StackNo) (r : StackAllowance) (s : State) : (s.setAllowance i r).clockHand = s.clockHand := by rfl
@[simp] theorem State.setAllowance_handOrder (i : StackNo) (r : StackAllowance) (s : State) : (s.setAllowance i r).handOrder = s.handOrder := by rfl
@[simp] theorem State.setAllowance_lastClaim (i : StackNo) (r : StackAllowance) (s : State) : (s.setAllowance i r).lastClaim = s.lastClaim := by rfl
@[simp] theorem State.setAllowance_portA (i : StackNo) (r : StackAllowance) (s : State) : (s.setAllowance i r).portA = s.portA := by rfl
@[simp] theorem State.setAllowance_portB (i : StackNo) (r : StackAllowance) (s : State) : (s.setAllowance i r).portB = s.portB := by rfl
@[simp] theorem State.setAllowance_events (i : StackNo) (r : StackAllowance) (s : State) : (s.setAllowance i r).events = s.events := by rfl
@[simp] theorem State.setAllowance_pending (i : StackNo) (r : StackAllowance) (s : State) : (s.setAllowance i r).pending = s.pending := by rfl

/-! ## State.setInput -/

@[simp] theorem State.setInput_now (i : StackNo) (r : StackInput) (s : State) : (s.setInput i r).now = s.now := by rfl
@[simp] theorem State.setInput_part (i : StackNo) (r : StackInput) (s : State) : (s.setInput i r).part = s.part := by rfl
@[simp] theorem State.setInput_supplyGood (i : StackNo) (r : StackInput) (s : State) : (s.setInput i r).supplyGood = s.supplyGood := by rfl
@[simp] theorem State.setInput_rstnHigh (i : StackNo) (r : StackInput) (s : State) : (s.setInput i r).rstnHigh = s.rstnHigh := by rfl
@[simp] theorem State.setInput_clock (i : StackNo) (r : StackInput) (s : State) : (s.setInput i r).clock = s.clock := by rfl
@[simp] theorem State.setInput_feedLines (i : StackNo) (r : StackInput) (s : State) : (s.setInput i r).feedLines = s.feedLines := by rfl
@[simp] theorem State.setInput_slots (i : StackNo) (r : StackInput) (s : State) : (s.setInput i r).slots = s.slots := by rfl
@[simp] theorem State.setInput_accumulators (i : StackNo) (r : StackInput) (s : State) : (s.setInput i r).accumulators = s.accumulators := by rfl
@[simp] theorem State.setInput_counts (i : StackNo) (r : StackInput) (s : State) : (s.setInput i r).counts = s.counts := by rfl
@[simp] theorem State.setInput_queue (i : StackNo) (r : StackInput) (s : State) : (s.setInput i r).queue = s.queue := by rfl
@[simp] theorem State.setInput_accounts (i : StackNo) (r : StackInput) (s : State) : (s.setInput i r).accounts = s.accounts := by rfl
@[simp] theorem State.setInput_channels (i : StackNo) (r : StackInput) (s : State) : (s.setInput i r).channels = s.channels := by rfl
@[simp] theorem State.setInput_allowances (i : StackNo) (r : StackInput) (s : State) : (s.setInput i r).allowances = s.allowances := by rfl
@[simp] theorem State.setInput_episodes (i : StackNo) (r : StackInput) (s : State) : (s.setInput i r).episodes = s.episodes := by rfl
@[simp] theorem State.setInput_episodeCounter (i : StackNo) (r : StackInput) (s : State) : (s.setInput i r).episodeCounter = s.episodeCounter := by rfl
@[simp] theorem State.setInput_inFlight (i : StackNo) (r : StackInput) (s : State) : (s.setInput i r).inFlight = s.inFlight := by rfl
@[simp] theorem State.setInput_monitorHand (i : StackNo) (r : StackInput) (s : State) : (s.setInput i r).monitorHand = s.monitorHand := by rfl
@[simp] theorem State.setInput_clockHand (i : StackNo) (r : StackInput) (s : State) : (s.setInput i r).clockHand = s.clockHand := by rfl
@[simp] theorem State.setInput_handOrder (i : StackNo) (r : StackInput) (s : State) : (s.setInput i r).handOrder = s.handOrder := by rfl
@[simp] theorem State.setInput_lastClaim (i : StackNo) (r : StackInput) (s : State) : (s.setInput i r).lastClaim = s.lastClaim := by rfl
@[simp] theorem State.setInput_portA (i : StackNo) (r : StackInput) (s : State) : (s.setInput i r).portA = s.portA := by rfl
@[simp] theorem State.setInput_portB (i : StackNo) (r : StackInput) (s : State) : (s.setInput i r).portB = s.portB := by rfl
@[simp] theorem State.setInput_events (i : StackNo) (r : StackInput) (s : State) : (s.setInput i r).events = s.events := by rfl
@[simp] theorem State.setInput_pending (i : StackNo) (r : StackInput) (s : State) : (s.setInput i r).pending = s.pending := by rfl

/-! ## State.setSlot -/

@[simp] theorem State.setSlot_now (c : ChannelNo) (n : SlotName) (p : PostingSlot) (s : State) : (s.setSlot c n p).now = s.now := by rfl
@[simp] theorem State.setSlot_part (c : ChannelNo) (n : SlotName) (p : PostingSlot) (s : State) : (s.setSlot c n p).part = s.part := by rfl
@[simp] theorem State.setSlot_supplyGood (c : ChannelNo) (n : SlotName) (p : PostingSlot) (s : State) : (s.setSlot c n p).supplyGood = s.supplyGood := by rfl
@[simp] theorem State.setSlot_rstnHigh (c : ChannelNo) (n : SlotName) (p : PostingSlot) (s : State) : (s.setSlot c n p).rstnHigh = s.rstnHigh := by rfl
@[simp] theorem State.setSlot_clock (c : ChannelNo) (n : SlotName) (p : PostingSlot) (s : State) : (s.setSlot c n p).clock = s.clock := by rfl
@[simp] theorem State.setSlot_inputs (c : ChannelNo) (n : SlotName) (p : PostingSlot) (s : State) : (s.setSlot c n p).inputs = s.inputs := by rfl
@[simp] theorem State.setSlot_feedLines (c : ChannelNo) (n : SlotName) (p : PostingSlot) (s : State) : (s.setSlot c n p).feedLines = s.feedLines := by rfl
@[simp] theorem State.setSlot_accumulators (c : ChannelNo) (n : SlotName) (p : PostingSlot) (s : State) : (s.setSlot c n p).accumulators = s.accumulators := by rfl
@[simp] theorem State.setSlot_counts (c : ChannelNo) (n : SlotName) (p : PostingSlot) (s : State) : (s.setSlot c n p).counts = s.counts := by rfl
@[simp] theorem State.setSlot_queue (c : ChannelNo) (n : SlotName) (p : PostingSlot) (s : State) : (s.setSlot c n p).queue = s.queue := by rfl
@[simp] theorem State.setSlot_accounts (c : ChannelNo) (n : SlotName) (p : PostingSlot) (s : State) : (s.setSlot c n p).accounts = s.accounts := by rfl
@[simp] theorem State.setSlot_channels (c : ChannelNo) (n : SlotName) (p : PostingSlot) (s : State) : (s.setSlot c n p).channels = s.channels := by rfl
@[simp] theorem State.setSlot_allowances (c : ChannelNo) (n : SlotName) (p : PostingSlot) (s : State) : (s.setSlot c n p).allowances = s.allowances := by rfl
@[simp] theorem State.setSlot_episodes (c : ChannelNo) (n : SlotName) (p : PostingSlot) (s : State) : (s.setSlot c n p).episodes = s.episodes := by rfl
@[simp] theorem State.setSlot_episodeCounter (c : ChannelNo) (n : SlotName) (p : PostingSlot) (s : State) : (s.setSlot c n p).episodeCounter = s.episodeCounter := by rfl
@[simp] theorem State.setSlot_inFlight (c : ChannelNo) (n : SlotName) (p : PostingSlot) (s : State) : (s.setSlot c n p).inFlight = s.inFlight := by rfl
@[simp] theorem State.setSlot_monitorHand (c : ChannelNo) (n : SlotName) (p : PostingSlot) (s : State) : (s.setSlot c n p).monitorHand = s.monitorHand := by rfl
@[simp] theorem State.setSlot_clockHand (c : ChannelNo) (n : SlotName) (p : PostingSlot) (s : State) : (s.setSlot c n p).clockHand = s.clockHand := by rfl
@[simp] theorem State.setSlot_handOrder (c : ChannelNo) (n : SlotName) (p : PostingSlot) (s : State) : (s.setSlot c n p).handOrder = s.handOrder := by rfl
@[simp] theorem State.setSlot_lastClaim (c : ChannelNo) (n : SlotName) (p : PostingSlot) (s : State) : (s.setSlot c n p).lastClaim = s.lastClaim := by rfl
@[simp] theorem State.setSlot_portA (c : ChannelNo) (n : SlotName) (p : PostingSlot) (s : State) : (s.setSlot c n p).portA = s.portA := by rfl
@[simp] theorem State.setSlot_portB (c : ChannelNo) (n : SlotName) (p : PostingSlot) (s : State) : (s.setSlot c n p).portB = s.portB := by rfl
@[simp] theorem State.setSlot_events (c : ChannelNo) (n : SlotName) (p : PostingSlot) (s : State) : (s.setSlot c n p).events = s.events := by rfl
@[simp] theorem State.setSlot_pending (c : ChannelNo) (n : SlotName) (p : PostingSlot) (s : State) : (s.setSlot c n p).pending = s.pending := by rfl

/-! ## moveFrame -/

@[simp] theorem moveFrame_now (b : Bool) (loc : Loc) (s : State) : (moveFrame b loc s).now = s.now := by rfl
@[simp] theorem moveFrame_part (b : Bool) (loc : Loc) (s : State) : (moveFrame b loc s).part = s.part := by rfl
@[simp] theorem moveFrame_supplyGood (b : Bool) (loc : Loc) (s : State) : (moveFrame b loc s).supplyGood = s.supplyGood := by rfl
@[simp] theorem moveFrame_rstnHigh (b : Bool) (loc : Loc) (s : State) : (moveFrame b loc s).rstnHigh = s.rstnHigh := by rfl
@[simp] theorem moveFrame_clock (b : Bool) (loc : Loc) (s : State) : (moveFrame b loc s).clock = s.clock := by rfl
@[simp] theorem moveFrame_inputs (b : Bool) (loc : Loc) (s : State) : (moveFrame b loc s).inputs = s.inputs := by rfl
@[simp] theorem moveFrame_feedLines (b : Bool) (loc : Loc) (s : State) : (moveFrame b loc s).feedLines = s.feedLines := by rfl
@[simp] theorem moveFrame_slots (b : Bool) (loc : Loc) (s : State) : (moveFrame b loc s).slots = s.slots := by rfl
@[simp] theorem moveFrame_accumulators (b : Bool) (loc : Loc) (s : State) : (moveFrame b loc s).accumulators = s.accumulators := by rfl
@[simp] theorem moveFrame_counts (b : Bool) (loc : Loc) (s : State) : (moveFrame b loc s).counts = s.counts := by rfl
@[simp] theorem moveFrame_queue (b : Bool) (loc : Loc) (s : State) : (moveFrame b loc s).queue = s.queue := by rfl
@[simp] theorem moveFrame_accounts (b : Bool) (loc : Loc) (s : State) : (moveFrame b loc s).accounts = s.accounts := by rfl
@[simp] theorem moveFrame_channels (b : Bool) (loc : Loc) (s : State) : (moveFrame b loc s).channels = s.channels := by rfl
@[simp] theorem moveFrame_allowances (b : Bool) (loc : Loc) (s : State) : (moveFrame b loc s).allowances = s.allowances := by rfl
@[simp] theorem moveFrame_episodes (b : Bool) (loc : Loc) (s : State) : (moveFrame b loc s).episodes = s.episodes := by rfl
@[simp] theorem moveFrame_episodeCounter (b : Bool) (loc : Loc) (s : State) : (moveFrame b loc s).episodeCounter = s.episodeCounter := by rfl
@[simp] theorem moveFrame_inFlight (b : Bool) (loc : Loc) (s : State) : (moveFrame b loc s).inFlight = s.inFlight := by rfl
@[simp] theorem moveFrame_monitorHand (b : Bool) (loc : Loc) (s : State) : (moveFrame b loc s).monitorHand = s.monitorHand := by rfl
@[simp] theorem moveFrame_clockHand (b : Bool) (loc : Loc) (s : State) : (moveFrame b loc s).clockHand = s.clockHand := by rfl
@[simp] theorem moveFrame_handOrder (b : Bool) (loc : Loc) (s : State) : (moveFrame b loc s).handOrder = s.handOrder := by rfl
@[simp] theorem moveFrame_lastClaim (b : Bool) (loc : Loc) (s : State) : (moveFrame b loc s).lastClaim = s.lastClaim := by rfl
@[simp] theorem moveFrame_portB (b : Bool) (loc : Loc) (s : State) : (moveFrame b loc s).portB = s.portB := by rfl
@[simp] theorem moveFrame_events (b : Bool) (loc : Loc) (s : State) : (moveFrame b loc s).events = s.events := by rfl
@[simp] theorem moveFrame_pending (b : Bool) (loc : Loc) (s : State) : (moveFrame b loc s).pending = s.pending := by rfl

/-! ## advanceTo -/

@[simp] theorem advanceTo_part (t : Nat) (s : State) : (advanceTo t s).part = s.part := by rfl
@[simp] theorem advanceTo_supplyGood (t : Nat) (s : State) : (advanceTo t s).supplyGood = s.supplyGood := by rfl
@[simp] theorem advanceTo_rstnHigh (t : Nat) (s : State) : (advanceTo t s).rstnHigh = s.rstnHigh := by rfl
@[simp] theorem advanceTo_clock (t : Nat) (s : State) : (advanceTo t s).clock = s.clock := by rfl
@[simp] theorem advanceTo_inputs (t : Nat) (s : State) : (advanceTo t s).inputs = s.inputs := by rfl
@[simp] theorem advanceTo_feedLines (t : Nat) (s : State) : (advanceTo t s).feedLines = s.feedLines := by rfl
@[simp] theorem advanceTo_slots (t : Nat) (s : State) : (advanceTo t s).slots = s.slots := by rfl
@[simp] theorem advanceTo_accumulators (t : Nat) (s : State) : (advanceTo t s).accumulators = s.accumulators := by rfl
@[simp] theorem advanceTo_counts (t : Nat) (s : State) : (advanceTo t s).counts = s.counts := by rfl
@[simp] theorem advanceTo_queue (t : Nat) (s : State) : (advanceTo t s).queue = s.queue := by rfl
@[simp] theorem advanceTo_accounts (t : Nat) (s : State) : (advanceTo t s).accounts = s.accounts := by rfl
@[simp] theorem advanceTo_channels (t : Nat) (s : State) : (advanceTo t s).channels = s.channels := by rfl
@[simp] theorem advanceTo_allowances (t : Nat) (s : State) : (advanceTo t s).allowances = s.allowances := by rfl
@[simp] theorem advanceTo_episodes (t : Nat) (s : State) : (advanceTo t s).episodes = s.episodes := by rfl
@[simp] theorem advanceTo_episodeCounter (t : Nat) (s : State) : (advanceTo t s).episodeCounter = s.episodeCounter := by rfl
@[simp] theorem advanceTo_inFlight (t : Nat) (s : State) : (advanceTo t s).inFlight = s.inFlight := by rfl
@[simp] theorem advanceTo_monitorHand (t : Nat) (s : State) : (advanceTo t s).monitorHand = s.monitorHand := by rfl
@[simp] theorem advanceTo_clockHand (t : Nat) (s : State) : (advanceTo t s).clockHand = s.clockHand := by rfl
@[simp] theorem advanceTo_handOrder (t : Nat) (s : State) : (advanceTo t s).handOrder = s.handOrder := by rfl
@[simp] theorem advanceTo_lastClaim (t : Nat) (s : State) : (advanceTo t s).lastClaim = s.lastClaim := by rfl
@[simp] theorem advanceTo_portA (t : Nat) (s : State) : (advanceTo t s).portA = s.portA := by rfl
@[simp] theorem advanceTo_portB (t : Nat) (s : State) : (advanceTo t s).portB = s.portB := by rfl
@[simp] theorem advanceTo_events (t : Nat) (s : State) : (advanceTo t s).events = s.events := by rfl
@[simp] theorem advanceTo_pending (t : Nat) (s : State) : (advanceTo t s).pending = s.pending := by rfl

/-! ## setSource -/

@[simp] theorem setSource_now (c : TimeSource) (s : State) : (setSource c s).now = s.now := by rfl
@[simp] theorem setSource_part (c : TimeSource) (s : State) : (setSource c s).part = s.part := by rfl
@[simp] theorem setSource_supplyGood (c : TimeSource) (s : State) : (setSource c s).supplyGood = s.supplyGood := by rfl
@[simp] theorem setSource_rstnHigh (c : TimeSource) (s : State) : (setSource c s).rstnHigh = s.rstnHigh := by rfl
@[simp] theorem setSource_inputs (c : TimeSource) (s : State) : (setSource c s).inputs = s.inputs := by rfl
@[simp] theorem setSource_feedLines (c : TimeSource) (s : State) : (setSource c s).feedLines = s.feedLines := by rfl
@[simp] theorem setSource_slots (c : TimeSource) (s : State) : (setSource c s).slots = s.slots := by rfl
@[simp] theorem setSource_accumulators (c : TimeSource) (s : State) : (setSource c s).accumulators = s.accumulators := by rfl
@[simp] theorem setSource_counts (c : TimeSource) (s : State) : (setSource c s).counts = s.counts := by rfl
@[simp] theorem setSource_queue (c : TimeSource) (s : State) : (setSource c s).queue = s.queue := by rfl
@[simp] theorem setSource_accounts (c : TimeSource) (s : State) : (setSource c s).accounts = s.accounts := by rfl
@[simp] theorem setSource_channels (c : TimeSource) (s : State) : (setSource c s).channels = s.channels := by rfl
@[simp] theorem setSource_allowances (c : TimeSource) (s : State) : (setSource c s).allowances = s.allowances := by rfl
@[simp] theorem setSource_episodes (c : TimeSource) (s : State) : (setSource c s).episodes = s.episodes := by rfl
@[simp] theorem setSource_episodeCounter (c : TimeSource) (s : State) : (setSource c s).episodeCounter = s.episodeCounter := by rfl
@[simp] theorem setSource_inFlight (c : TimeSource) (s : State) : (setSource c s).inFlight = s.inFlight := by rfl
@[simp] theorem setSource_monitorHand (c : TimeSource) (s : State) : (setSource c s).monitorHand = s.monitorHand := by rfl
@[simp] theorem setSource_clockHand (c : TimeSource) (s : State) : (setSource c s).clockHand = s.clockHand := by rfl
@[simp] theorem setSource_handOrder (c : TimeSource) (s : State) : (setSource c s).handOrder = s.handOrder := by rfl
@[simp] theorem setSource_lastClaim (c : TimeSource) (s : State) : (setSource c s).lastClaim = s.lastClaim := by rfl
@[simp] theorem setSource_portA (c : TimeSource) (s : State) : (setSource c s).portA = s.portA := by rfl
@[simp] theorem setSource_portB (c : TimeSource) (s : State) : (setSource c s).portB = s.portB := by rfl
@[simp] theorem setSource_events (c : TimeSource) (s : State) : (setSource c s).events = s.events := by rfl
@[simp] theorem setSource_pending (c : TimeSource) (s : State) : (setSource c s).pending = s.pending := by rfl

/-! ## What the updates write -/

@[simp] theorem account_setAccount (i j : SlotNo) (a : Account) (s : State) :
    (s.setAccount i a).account j = if i = j then a else s.account j := get_put ..

@[simp] theorem account_updCurrent (i j : SlotNo) (f : CurrentSide → CurrentSide) (s : State) :
    (s.updCurrent i f).account j =
      if i = j then { s.account i with current := (s.account i).current.map f } else s.account j := get_put ..

@[simp] theorem channel_setChannel (c d : ChannelNo) (r : Channel) (s : State) :
    (s.setChannel c r).channel d = if c = d then r else s.channel d := get_put ..

@[simp] theorem channel_setLink (c d : ChannelNo) (l : Option SlotNo) (s : State) :
    (s.setLink c l).channel d = if c = d then { s.channel c with link := l } else s.channel d := get_put ..

@[simp] theorem allowance_setAllowance (i j : StackNo) (r : StackAllowance) (s : State) :
    (s.setAllowance i r).allowance j = if i = j then r else s.allowance j := get_put ..

@[simp] theorem input_setInput (i j : StackNo) (r : StackInput) (s : State) :
    (s.setInput i r).input j = if i = j then r else s.input j := get_put ..

@[simp] theorem slotPair_setSlot (c d : ChannelNo) (n : SlotName) (p : PostingSlot) (s : State) :
    (s.setSlot c n p).slotPair d = if c = d then (s.slotPair c).set n p else s.slotPair d := get_put ..

@[simp] theorem common_setCommon (p q : Port) (c : PortCommon) (s : State) :
    (s.setCommon p c).common q = if p = q then c else s.common q := by
  cases p <;> cases q <;> rfl

@[simp] theorem common_raiseEvent (e : EventSource) (d : Nat) (p : Port) (s : State) :
    (raiseEvent e d s).common p = s.common p := by cases p <;> rfl

@[simp] theorem common_takeUp (o : Owner) (p : Port) (s : State) : (takeUp o s).common p = s.common p := by
  cases o <;> cases p <;> rfl

@[simp] theorem common_release (o : Owner) (p : Port) (s : State) : (release o s).common p = s.common p := by
  cases o <;> cases p <;> rfl

@[simp] theorem common_finish (o : Owner) (p : Port) (s : State) : (finish o s).common p = s.common p := by
  cases o <;> cases p <;> rfl


@[simp] theorem raiseEvent_events (e : EventSource) (d : Nat) (s : State) :
    (raiseEvent e d s).events = s.events.record e d := rfl

@[simp] theorem takeUp_engine_inFlight (s : State) : (takeUp .engine s).inFlight = nextClaim s := rfl

@[simp] theorem takeUp_monitor_hand (s : State) : (takeUp .monitor s).monitorHand = nextPort s .monitor := rfl

@[simp] theorem takeUp_clock_hand (s : State) : (takeUp .clock s).clockHand = nextPort s .clock := rfl


@[simp] theorem removeHead_queue (s : State) : (removeHead s).queue = s.queue.tail := rfl

@[simp] theorem removeHead_lastClaim (s : State) : (removeHead s).lastClaim = .entry := rfl


/-! ## Readers through the updates -/

@[simp] theorem account_setCommon_frame (p : Port) (c : PortCommon) (s : State) (k : SlotNo) : (s.setCommon p c).account k = s.account k := by cases p <;> rfl
@[simp] theorem channel_setCommon_frame (p : Port) (c : PortCommon) (s : State) (k : ChannelNo) : (s.setCommon p c).channel k = s.channel k := by cases p <;> rfl
@[simp] theorem allowance_setCommon_frame (p : Port) (c : PortCommon) (s : State) (k : StackNo) : (s.setCommon p c).allowance k = s.allowance k := by cases p <;> rfl
@[simp] theorem input_setCommon_frame (p : Port) (c : PortCommon) (s : State) (k : StackNo) : (s.setCommon p c).input k = s.input k := by cases p <;> rfl
@[simp] theorem slotPair_setCommon_frame (p : Port) (c : PortCommon) (s : State) (k : ChannelNo) : (s.setCommon p c).slotPair k = s.slotPair k := by cases p <;> rfl
@[simp] theorem account_setArea_frame (p : Port) (a : RequestArea) (s : State) (k : SlotNo) : (s.setArea p a).account k = s.account k := by cases p <;> rfl
@[simp] theorem channel_setArea_frame (p : Port) (a : RequestArea) (s : State) (k : ChannelNo) : (s.setArea p a).channel k = s.channel k := by cases p <;> rfl
@[simp] theorem allowance_setArea_frame (p : Port) (a : RequestArea) (s : State) (k : StackNo) : (s.setArea p a).allowance k = s.allowance k := by cases p <;> rfl
@[simp] theorem input_setArea_frame (p : Port) (a : RequestArea) (s : State) (k : StackNo) : (s.setArea p a).input k = s.input k := by cases p <;> rfl
@[simp] theorem slotPair_setArea_frame (p : Port) (a : RequestArea) (s : State) (k : ChannelNo) : (s.setArea p a).slotPair k = s.slotPair k := by cases p <;> rfl
@[simp] theorem account_setView_frame (p : Port) (v : Snapshot) (s : State) (k : SlotNo) : (setView p v s).account k = s.account k := by cases p <;> rfl
@[simp] theorem channel_setView_frame (p : Port) (v : Snapshot) (s : State) (k : ChannelNo) : (setView p v s).channel k = s.channel k := by cases p <;> rfl
@[simp] theorem allowance_setView_frame (p : Port) (v : Snapshot) (s : State) (k : StackNo) : (setView p v s).allowance k = s.allowance k := by cases p <;> rfl
@[simp] theorem input_setView_frame (p : Port) (v : Snapshot) (s : State) (k : StackNo) : (setView p v s).input k = s.input k := by cases p <;> rfl
@[simp] theorem slotPair_setView_frame (p : Port) (v : Snapshot) (s : State) (k : ChannelNo) : (setView p v s).slotPair k = s.slotPair k := by cases p <;> rfl
@[simp] theorem account_complete_frame (p : Port) (b : Byte) (o : ReqOutcome) (l : List Word32) (s : State) (k : SlotNo) : (complete p b o l s).account k = s.account k := by cases p <;> rfl
@[simp] theorem channel_complete_frame (p : Port) (b : Byte) (o : ReqOutcome) (l : List Word32) (s : State) (k : ChannelNo) : (complete p b o l s).channel k = s.channel k := by cases p <;> rfl
@[simp] theorem allowance_complete_frame (p : Port) (b : Byte) (o : ReqOutcome) (l : List Word32) (s : State) (k : StackNo) : (complete p b o l s).allowance k = s.allowance k := by cases p <;> rfl
@[simp] theorem input_complete_frame (p : Port) (b : Byte) (o : ReqOutcome) (l : List Word32) (s : State) (k : StackNo) : (complete p b o l s).input k = s.input k := by cases p <;> rfl
@[simp] theorem slotPair_complete_frame (p : Port) (b : Byte) (o : ReqOutcome) (l : List Word32) (s : State) (k : ChannelNo) : (complete p b o l s).slotPair k = s.slotPair k := by cases p <;> rfl
@[simp] theorem account_raiseEvent_frame (e : EventSource) (d : Nat) (s : State) (k : SlotNo) : (raiseEvent e d s).account k = s.account k := by rfl
@[simp] theorem channel_raiseEvent_frame (e : EventSource) (d : Nat) (s : State) (k : ChannelNo) : (raiseEvent e d s).channel k = s.channel k := by rfl
@[simp] theorem allowance_raiseEvent_frame (e : EventSource) (d : Nat) (s : State) (k : StackNo) : (raiseEvent e d s).allowance k = s.allowance k := by rfl
@[simp] theorem input_raiseEvent_frame (e : EventSource) (d : Nat) (s : State) (k : StackNo) : (raiseEvent e d s).input k = s.input k := by rfl
@[simp] theorem slotPair_raiseEvent_frame (e : EventSource) (d : Nat) (s : State) (k : ChannelNo) : (raiseEvent e d s).slotPair k = s.slotPair k := by rfl
@[simp] theorem account_takeUp_frame (o : Owner) (s : State) (k : SlotNo) : (takeUp o s).account k = s.account k := by cases o <;> rfl
@[simp] theorem account_release_frame (o : Owner) (s : State) (k : SlotNo) : (release o s).account k = s.account k := by cases o <;> rfl
@[simp] theorem account_finish_frame (o : Owner) (s : State) (k : SlotNo) : (finish o s).account k = s.account k := by cases o <;> rfl
@[simp] theorem channel_takeUp_frame (o : Owner) (s : State) (k : ChannelNo) : (takeUp o s).channel k = s.channel k := by cases o <;> rfl
@[simp] theorem channel_release_frame (o : Owner) (s : State) (k : ChannelNo) : (release o s).channel k = s.channel k := by cases o <;> rfl
@[simp] theorem channel_finish_frame (o : Owner) (s : State) (k : ChannelNo) : (finish o s).channel k = s.channel k := by cases o <;> rfl
@[simp] theorem allowance_takeUp_frame (o : Owner) (s : State) (k : StackNo) : (takeUp o s).allowance k = s.allowance k := by cases o <;> rfl
@[simp] theorem allowance_release_frame (o : Owner) (s : State) (k : StackNo) : (release o s).allowance k = s.allowance k := by cases o <;> rfl
@[simp] theorem allowance_finish_frame (o : Owner) (s : State) (k : StackNo) : (finish o s).allowance k = s.allowance k := by cases o <;> rfl
@[simp] theorem input_takeUp_frame (o : Owner) (s : State) (k : StackNo) : (takeUp o s).input k = s.input k := by cases o <;> rfl
@[simp] theorem input_release_frame (o : Owner) (s : State) (k : StackNo) : (release o s).input k = s.input k := by cases o <;> rfl
@[simp] theorem input_finish_frame (o : Owner) (s : State) (k : StackNo) : (finish o s).input k = s.input k := by cases o <;> rfl
@[simp] theorem slotPair_takeUp_frame (o : Owner) (s : State) (k : ChannelNo) : (takeUp o s).slotPair k = s.slotPair k := by cases o <;> rfl
@[simp] theorem slotPair_release_frame (o : Owner) (s : State) (k : ChannelNo) : (release o s).slotPair k = s.slotPair k := by cases o <;> rfl
@[simp] theorem slotPair_finish_frame (o : Owner) (s : State) (k : ChannelNo) : (finish o s).slotPair k = s.slotPair k := by cases o <;> rfl
@[simp] theorem account_removeHead_frame (s : State) (k : SlotNo) : (removeHead s).account k = s.account k := by rfl
@[simp] theorem channel_removeHead_frame (s : State) (k : ChannelNo) : (removeHead s).channel k = s.channel k := by rfl
@[simp] theorem allowance_removeHead_frame (s : State) (k : StackNo) : (removeHead s).allowance k = s.allowance k := by rfl
@[simp] theorem input_removeHead_frame (s : State) (k : StackNo) : (removeHead s).input k = s.input k := by rfl
@[simp] theorem slotPair_removeHead_frame (s : State) (k : ChannelNo) : (removeHead s).slotPair k = s.slotPair k := by rfl
@[simp] theorem channel_setAccount_frame (i : SlotNo) (a : Account) (s : State) (k : ChannelNo) : (s.setAccount i a).channel k = s.channel k := by rfl
@[simp] theorem allowance_setAccount_frame (i : SlotNo) (a : Account) (s : State) (k : StackNo) : (s.setAccount i a).allowance k = s.allowance k := by rfl
@[simp] theorem input_setAccount_frame (i : SlotNo) (a : Account) (s : State) (k : StackNo) : (s.setAccount i a).input k = s.input k := by rfl
@[simp] theorem slotPair_setAccount_frame (i : SlotNo) (a : Account) (s : State) (k : ChannelNo) : (s.setAccount i a).slotPair k = s.slotPair k := by rfl
@[simp] theorem channel_updCurrent_frame (i : SlotNo) (f : CurrentSide → CurrentSide) (s : State) (k : ChannelNo) : (s.updCurrent i f).channel k = s.channel k := by rfl
@[simp] theorem allowance_updCurrent_frame (i : SlotNo) (f : CurrentSide → CurrentSide) (s : State) (k : StackNo) : (s.updCurrent i f).allowance k = s.allowance k := by rfl
@[simp] theorem input_updCurrent_frame (i : SlotNo) (f : CurrentSide → CurrentSide) (s : State) (k : StackNo) : (s.updCurrent i f).input k = s.input k := by rfl
@[simp] theorem slotPair_updCurrent_frame (i : SlotNo) (f : CurrentSide → CurrentSide) (s : State) (k : ChannelNo) : (s.updCurrent i f).slotPair k = s.slotPair k := by rfl
@[simp] theorem account_setChannel_frame (c : ChannelNo) (r : Channel) (s : State) (k : SlotNo) : (s.setChannel c r).account k = s.account k := by rfl
@[simp] theorem allowance_setChannel_frame (c : ChannelNo) (r : Channel) (s : State) (k : StackNo) : (s.setChannel c r).allowance k = s.allowance k := by rfl
@[simp] theorem input_setChannel_frame (c : ChannelNo) (r : Channel) (s : State) (k : StackNo) : (s.setChannel c r).input k = s.input k := by rfl
@[simp] theorem slotPair_setChannel_frame (c : ChannelNo) (r : Channel) (s : State) (k : ChannelNo) : (s.setChannel c r).slotPair k = s.slotPair k := by rfl
@[simp] theorem account_setLink_frame (c : ChannelNo) (l : Option SlotNo) (s : State) (k : SlotNo) : (s.setLink c l).account k = s.account k := by rfl
@[simp] theorem allowance_setLink_frame (c : ChannelNo) (l : Option SlotNo) (s : State) (k : StackNo) : (s.setLink c l).allowance k = s.allowance k := by rfl
@[simp] theorem input_setLink_frame (c : ChannelNo) (l : Option SlotNo) (s : State) (k : StackNo) : (s.setLink c l).input k = s.input k := by rfl
@[simp] theorem slotPair_setLink_frame (c : ChannelNo) (l : Option SlotNo) (s : State) (k : ChannelNo) : (s.setLink c l).slotPair k = s.slotPair k := by rfl
@[simp] theorem account_setLinkOf_frame (c : Option ChannelNo) (l : Option SlotNo) (s : State) (k : SlotNo) : (s.setLinkOf c l).account k = s.account k := by cases c <;> rfl
@[simp] theorem allowance_setLinkOf_frame (c : Option ChannelNo) (l : Option SlotNo) (s : State) (k : StackNo) : (s.setLinkOf c l).allowance k = s.allowance k := by cases c <;> rfl
@[simp] theorem input_setLinkOf_frame (c : Option ChannelNo) (l : Option SlotNo) (s : State) (k : StackNo) : (s.setLinkOf c l).input k = s.input k := by cases c <;> rfl
@[simp] theorem slotPair_setLinkOf_frame (c : Option ChannelNo) (l : Option SlotNo) (s : State) (k : ChannelNo) : (s.setLinkOf c l).slotPair k = s.slotPair k := by cases c <;> rfl
@[simp] theorem account_setAllowance_frame (i : StackNo) (r : StackAllowance) (s : State) (k : SlotNo) : (s.setAllowance i r).account k = s.account k := by rfl
@[simp] theorem channel_setAllowance_frame (i : StackNo) (r : StackAllowance) (s : State) (k : ChannelNo) : (s.setAllowance i r).channel k = s.channel k := by rfl
@[simp] theorem input_setAllowance_frame (i : StackNo) (r : StackAllowance) (s : State) (k : StackNo) : (s.setAllowance i r).input k = s.input k := by rfl
@[simp] theorem slotPair_setAllowance_frame (i : StackNo) (r : StackAllowance) (s : State) (k : ChannelNo) : (s.setAllowance i r).slotPair k = s.slotPair k := by rfl
@[simp] theorem account_setInput_frame (i : StackNo) (r : StackInput) (s : State) (k : SlotNo) : (s.setInput i r).account k = s.account k := by rfl
@[simp] theorem channel_setInput_frame (i : StackNo) (r : StackInput) (s : State) (k : ChannelNo) : (s.setInput i r).channel k = s.channel k := by rfl
@[simp] theorem allowance_setInput_frame (i : StackNo) (r : StackInput) (s : State) (k : StackNo) : (s.setInput i r).allowance k = s.allowance k := by rfl
@[simp] theorem slotPair_setInput_frame (i : StackNo) (r : StackInput) (s : State) (k : ChannelNo) : (s.setInput i r).slotPair k = s.slotPair k := by rfl
@[simp] theorem account_setSlot_frame (c : ChannelNo) (n : SlotName) (p : PostingSlot) (s : State) (k : SlotNo) : (s.setSlot c n p).account k = s.account k := by rfl
@[simp] theorem channel_setSlot_frame (c : ChannelNo) (n : SlotName) (p : PostingSlot) (s : State) (k : ChannelNo) : (s.setSlot c n p).channel k = s.channel k := by rfl
@[simp] theorem allowance_setSlot_frame (c : ChannelNo) (n : SlotName) (p : PostingSlot) (s : State) (k : StackNo) : (s.setSlot c n p).allowance k = s.allowance k := by rfl
@[simp] theorem input_setSlot_frame (c : ChannelNo) (n : SlotName) (p : PostingSlot) (s : State) (k : StackNo) : (s.setSlot c n p).input k = s.input k := by rfl
@[simp] theorem account_moveFrame_frame (b : Bool) (loc : Loc) (s : State) (k : SlotNo) : (moveFrame b loc s).account k = s.account k := by rfl
@[simp] theorem channel_moveFrame_frame (b : Bool) (loc : Loc) (s : State) (k : ChannelNo) : (moveFrame b loc s).channel k = s.channel k := by rfl
@[simp] theorem allowance_moveFrame_frame (b : Bool) (loc : Loc) (s : State) (k : StackNo) : (moveFrame b loc s).allowance k = s.allowance k := by rfl
@[simp] theorem input_moveFrame_frame (b : Bool) (loc : Loc) (s : State) (k : StackNo) : (moveFrame b loc s).input k = s.input k := by rfl
@[simp] theorem slotPair_moveFrame_frame (b : Bool) (loc : Loc) (s : State) (k : ChannelNo) : (moveFrame b loc s).slotPair k = s.slotPair k := by rfl
@[simp] theorem account_advanceTo_frame (t : Nat) (s : State) (k : SlotNo) : (advanceTo t s).account k = s.account k := by rfl
@[simp] theorem channel_advanceTo_frame (t : Nat) (s : State) (k : ChannelNo) : (advanceTo t s).channel k = s.channel k := by rfl
@[simp] theorem allowance_advanceTo_frame (t : Nat) (s : State) (k : StackNo) : (advanceTo t s).allowance k = s.allowance k := by rfl
@[simp] theorem input_advanceTo_frame (t : Nat) (s : State) (k : StackNo) : (advanceTo t s).input k = s.input k := by rfl
@[simp] theorem slotPair_advanceTo_frame (t : Nat) (s : State) (k : ChannelNo) : (advanceTo t s).slotPair k = s.slotPair k := by rfl
@[simp] theorem account_setSource_frame (c : TimeSource) (s : State) (k : SlotNo) : (setSource c s).account k = s.account k := by rfl
@[simp] theorem channel_setSource_frame (c : TimeSource) (s : State) (k : ChannelNo) : (setSource c s).channel k = s.channel k := by rfl
@[simp] theorem allowance_setSource_frame (c : TimeSource) (s : State) (k : StackNo) : (setSource c s).allowance k = s.allowance k := by rfl
@[simp] theorem input_setSource_frame (c : TimeSource) (s : State) (k : StackNo) : (setSource c s).input k = s.input k := by rfl
@[simp] theorem slotPair_setSource_frame (c : TimeSource) (s : State) (k : ChannelNo) : (setSource c s).slotPair k = s.slotPair k := by rfl

end Sys2Proof.Machine
end

