-- ==== Sys2Proof/Laws/Frames.lean ====
section
/-! SUPPORT. What each shared operation changes at most: one equation for each, and the field readings that follow. -/

namespace Sys2Proof.Machine

/-- A fold changes no more than its function does. -/
theorem foldl_lens {σ α γ : Type} (f : σ → γ → σ) (get : σ → α) (set : σ → α → σ)
    (again : ∀ s a b, set (set s a) b = set s b) (same : ∀ s, set s (get s) = s)
    (h : ∀ s x, f s x = set s (get (f s x))) (l : List γ) (s : σ) : l.foldl f s = set s (get (l.foldl f s)) := by
  induction l generalizing s with
  | nil => exact (same s).symm
  | cons x l ih =>
    exact (ih (f s x)).trans ((congrArg (fun t => set t _) (h s x)).trans (again _ _ _))

/-- A run over the indices changes accounts and events only, when its function does. -/
theorem forEach_frame {n : Nat} (f : Fin n → State → State)
    (h : ∀ i s, f i s = { s with accounts := (f i s).accounts, events := (f i s).events }) (s : State) :
    forEach n f s = { s with accounts := (forEach n f s).accounts, events := (forEach n f s).events } :=
  foldl_lens (fun t i => f i t) (fun t => (t.accounts, t.events))
    (fun t a => { t with accounts := a.1, events := a.2 }) (fun _ _ _ => rfl) (fun _ => rfl) (fun t i => h i t) _ s

/-! ## evaluateStop -/

theorem evaluateStop_frame (i : StackNo) (s : State) :
    evaluateStop i s = { s with allowances := (evaluateStop i s).allowances, events := (evaluateStop i s).events } := by
  unfold evaluateStop; dsimp only; split <;> rfl

@[simp] theorem evaluateStop_part (i : StackNo) (s : State) : (evaluateStop i s).part = s.part := (congrArg State.part (evaluateStop_frame i s) :)
@[simp] theorem evaluateStop_clock (i : StackNo) (s : State) : (evaluateStop i s).clock = s.clock := (congrArg State.clock (evaluateStop_frame i s) :)
@[simp] theorem evaluateStop_inputs (i : StackNo) (s : State) : (evaluateStop i s).inputs = s.inputs := (congrArg State.inputs (evaluateStop_frame i s) :)
@[simp] theorem evaluateStop_slots (i : StackNo) (s : State) : (evaluateStop i s).slots = s.slots := (congrArg State.slots (evaluateStop_frame i s) :)
@[simp] theorem evaluateStop_queue (i : StackNo) (s : State) : (evaluateStop i s).queue = s.queue := (congrArg State.queue (evaluateStop_frame i s) :)
@[simp] theorem evaluateStop_accounts (i : StackNo) (s : State) : (evaluateStop i s).accounts = s.accounts := (congrArg State.accounts (evaluateStop_frame i s) :)
@[simp] theorem evaluateStop_channels (i : StackNo) (s : State) : (evaluateStop i s).channels = s.channels := (congrArg State.channels (evaluateStop_frame i s) :)
@[simp] theorem evaluateStop_episodes (i : StackNo) (s : State) : (evaluateStop i s).episodes = s.episodes := (congrArg State.episodes (evaluateStop_frame i s) :)
@[simp] theorem evaluateStop_episodeCounter (i : StackNo) (s : State) : (evaluateStop i s).episodeCounter = s.episodeCounter := (congrArg State.episodeCounter (evaluateStop_frame i s) :)
@[simp] theorem evaluateStop_portA (i : StackNo) (s : State) : (evaluateStop i s).portA = s.portA := (congrArg State.portA (evaluateStop_frame i s) :)
@[simp] theorem evaluateStop_portB (i : StackNo) (s : State) : (evaluateStop i s).portB = s.portB := (congrArg State.portB (evaluateStop_frame i s) :)

/-! ## openNew -/

theorem openNew_frame (u : Subject) (h : HalfHourStamp) (v : Option Nat) (s : State) :
    openNew u h v s = { s with accounts := (openNew u h v s).accounts, episodes := (openNew u h v s).episodes, episodeCounter := (openNew u h v s).episodeCounter, events := (openNew u h v s).events } := by
  unfold openNew; dsimp only; split
  · rfl
  · cases u <;> rfl

@[simp] theorem openNew_part (u : Subject) (h : HalfHourStamp) (v : Option Nat) (s : State) : (openNew u h v s).part = s.part := (congrArg State.part (openNew_frame u h v s) :)
@[simp] theorem openNew_clock (u : Subject) (h : HalfHourStamp) (v : Option Nat) (s : State) : (openNew u h v s).clock = s.clock := (congrArg State.clock (openNew_frame u h v s) :)
@[simp] theorem openNew_inputs (u : Subject) (h : HalfHourStamp) (v : Option Nat) (s : State) : (openNew u h v s).inputs = s.inputs := (congrArg State.inputs (openNew_frame u h v s) :)
@[simp] theorem openNew_slots (u : Subject) (h : HalfHourStamp) (v : Option Nat) (s : State) : (openNew u h v s).slots = s.slots := (congrArg State.slots (openNew_frame u h v s) :)
@[simp] theorem openNew_queue (u : Subject) (h : HalfHourStamp) (v : Option Nat) (s : State) : (openNew u h v s).queue = s.queue := (congrArg State.queue (openNew_frame u h v s) :)
@[simp] theorem openNew_channels (u : Subject) (h : HalfHourStamp) (v : Option Nat) (s : State) : (openNew u h v s).channels = s.channels := (congrArg State.channels (openNew_frame u h v s) :)
@[simp] theorem openNew_allowances (u : Subject) (h : HalfHourStamp) (v : Option Nat) (s : State) : (openNew u h v s).allowances = s.allowances := (congrArg State.allowances (openNew_frame u h v s) :)
@[simp] theorem openNew_portA (u : Subject) (h : HalfHourStamp) (v : Option Nat) (s : State) : (openNew u h v s).portA = s.portA := (congrArg State.portA (openNew_frame u h v s) :)
@[simp] theorem openNew_portB (u : Subject) (h : HalfHourStamp) (v : Option Nat) (s : State) : (openNew u h v s).portB = s.portB := (congrArg State.portB (openNew_frame u h v s) :)

/-! ## qualify -/

theorem qualify_frame (u : Subject) (h : HalfHourStamp) (v : Option Nat) (s : State) :
    qualify u h v s = { s with accounts := (qualify u h v s).accounts, episodes := (qualify u h v s).episodes, episodeCounter := (qualify u h v s).episodeCounter, events := (qualify u h v s).events } := by
  unfold qualify; split
  · rfl
  · rw [openNew_frame]

@[simp] theorem qualify_part (u : Subject) (h : HalfHourStamp) (v : Option Nat) (s : State) : (qualify u h v s).part = s.part := (congrArg State.part (qualify_frame u h v s) :)
@[simp] theorem qualify_clock (u : Subject) (h : HalfHourStamp) (v : Option Nat) (s : State) : (qualify u h v s).clock = s.clock := (congrArg State.clock (qualify_frame u h v s) :)
@[simp] theorem qualify_inputs (u : Subject) (h : HalfHourStamp) (v : Option Nat) (s : State) : (qualify u h v s).inputs = s.inputs := (congrArg State.inputs (qualify_frame u h v s) :)
@[simp] theorem qualify_slots (u : Subject) (h : HalfHourStamp) (v : Option Nat) (s : State) : (qualify u h v s).slots = s.slots := (congrArg State.slots (qualify_frame u h v s) :)
@[simp] theorem qualify_queue (u : Subject) (h : HalfHourStamp) (v : Option Nat) (s : State) : (qualify u h v s).queue = s.queue := (congrArg State.queue (qualify_frame u h v s) :)
@[simp] theorem qualify_channels (u : Subject) (h : HalfHourStamp) (v : Option Nat) (s : State) : (qualify u h v s).channels = s.channels := (congrArg State.channels (qualify_frame u h v s) :)
@[simp] theorem qualify_allowances (u : Subject) (h : HalfHourStamp) (v : Option Nat) (s : State) : (qualify u h v s).allowances = s.allowances := (congrArg State.allowances (qualify_frame u h v s) :)
@[simp] theorem qualify_portA (u : Subject) (h : HalfHourStamp) (v : Option Nat) (s : State) : (qualify u h v s).portA = s.portA := (congrArg State.portA (qualify_frame u h v s) :)
@[simp] theorem qualify_portB (u : Subject) (h : HalfHourStamp) (v : Option Nat) (s : State) : (qualify u h v s).portB = s.portB := (congrArg State.portB (qualify_frame u h v s) :)

/-! ## foldEpisode -/

theorem foldEpisode_frame (e : Episode) (s : State) :
    foldEpisode e s = { s with accounts := (foldEpisode e s).accounts } := by
  unfold foldEpisode; split <;> rfl

@[simp] theorem foldEpisode_part (e : Episode) (s : State) : (foldEpisode e s).part = s.part := (congrArg State.part (foldEpisode_frame e s) :)
@[simp] theorem foldEpisode_clock (e : Episode) (s : State) : (foldEpisode e s).clock = s.clock := (congrArg State.clock (foldEpisode_frame e s) :)
@[simp] theorem foldEpisode_inputs (e : Episode) (s : State) : (foldEpisode e s).inputs = s.inputs := (congrArg State.inputs (foldEpisode_frame e s) :)
@[simp] theorem foldEpisode_slots (e : Episode) (s : State) : (foldEpisode e s).slots = s.slots := (congrArg State.slots (foldEpisode_frame e s) :)
@[simp] theorem foldEpisode_queue (e : Episode) (s : State) : (foldEpisode e s).queue = s.queue := (congrArg State.queue (foldEpisode_frame e s) :)
@[simp] theorem foldEpisode_channels (e : Episode) (s : State) : (foldEpisode e s).channels = s.channels := (congrArg State.channels (foldEpisode_frame e s) :)
@[simp] theorem foldEpisode_allowances (e : Episode) (s : State) : (foldEpisode e s).allowances = s.allowances := (congrArg State.allowances (foldEpisode_frame e s) :)
@[simp] theorem foldEpisode_episodes (e : Episode) (s : State) : (foldEpisode e s).episodes = s.episodes := (congrArg State.episodes (foldEpisode_frame e s) :)
@[simp] theorem foldEpisode_episodeCounter (e : Episode) (s : State) : (foldEpisode e s).episodeCounter = s.episodeCounter := (congrArg State.episodeCounter (foldEpisode_frame e s) :)
@[simp] theorem foldEpisode_portA (e : Episode) (s : State) : (foldEpisode e s).portA = s.portA := (congrArg State.portA (foldEpisode_frame e s) :)
@[simp] theorem foldEpisode_portB (e : Episode) (s : State) : (foldEpisode e s).portB = s.portB := (congrArg State.portB (foldEpisode_frame e s) :)

/-! ## foldEpisodes -/

theorem foldEpisodes_frame (l : List Episode) (s : State) :
    l.foldl (fun t e => foldEpisode e t) s = { s with accounts := (l.foldl (fun t e => foldEpisode e t) s).accounts } :=
  foldl_lens _ (fun t : State => t.accounts) (fun t a => { t with accounts := a }) (fun _ _ _ => rfl) (fun _ => rfl)
    (fun t e => foldEpisode_frame e t) l s

@[simp] theorem foldEpisodes_part (l : List Episode) (s : State) : (l.foldl (fun t e => foldEpisode e t) s).part = s.part := (congrArg State.part (foldEpisodes_frame l s) :)
@[simp] theorem foldEpisodes_clock (l : List Episode) (s : State) : (l.foldl (fun t e => foldEpisode e t) s).clock = s.clock := (congrArg State.clock (foldEpisodes_frame l s) :)
@[simp] theorem foldEpisodes_inputs (l : List Episode) (s : State) : (l.foldl (fun t e => foldEpisode e t) s).inputs = s.inputs := (congrArg State.inputs (foldEpisodes_frame l s) :)
@[simp] theorem foldEpisodes_slots (l : List Episode) (s : State) : (l.foldl (fun t e => foldEpisode e t) s).slots = s.slots := (congrArg State.slots (foldEpisodes_frame l s) :)
@[simp] theorem foldEpisodes_queue (l : List Episode) (s : State) : (l.foldl (fun t e => foldEpisode e t) s).queue = s.queue := (congrArg State.queue (foldEpisodes_frame l s) :)
@[simp] theorem foldEpisodes_channels (l : List Episode) (s : State) : (l.foldl (fun t e => foldEpisode e t) s).channels = s.channels := (congrArg State.channels (foldEpisodes_frame l s) :)
@[simp] theorem foldEpisodes_allowances (l : List Episode) (s : State) : (l.foldl (fun t e => foldEpisode e t) s).allowances = s.allowances := (congrArg State.allowances (foldEpisodes_frame l s) :)
@[simp] theorem foldEpisodes_episodes (l : List Episode) (s : State) : (l.foldl (fun t e => foldEpisode e t) s).episodes = s.episodes := (congrArg State.episodes (foldEpisodes_frame l s) :)
@[simp] theorem foldEpisodes_episodeCounter (l : List Episode) (s : State) : (l.foldl (fun t e => foldEpisode e t) s).episodeCounter = s.episodeCounter := (congrArg State.episodeCounter (foldEpisodes_frame l s) :)
@[simp] theorem foldEpisodes_portA (l : List Episode) (s : State) : (l.foldl (fun t e => foldEpisode e t) s).portA = s.portA := (congrArg State.portA (foldEpisodes_frame l s) :)
@[simp] theorem foldEpisodes_portB (l : List Episode) (s : State) : (l.foldl (fun t e => foldEpisode e t) s).portB = s.portB := (congrArg State.portB (foldEpisodes_frame l s) :)

/-! ## endEpisodes -/

theorem endEpisodes_frame (q : Subject → Bool) (h : HalfHourStamp) (s : State) :
    endEpisodes q h s = { s with accounts := (endEpisodes q h s).accounts, episodes := (endEpisodes q h s).episodes } := by
  unfold endEpisodes; dsimp only; rw [foldEpisodes_frame]

@[simp] theorem endEpisodes_part (q : Subject → Bool) (h : HalfHourStamp) (s : State) : (endEpisodes q h s).part = s.part := (congrArg State.part (endEpisodes_frame q h s) :)
@[simp] theorem endEpisodes_clock (q : Subject → Bool) (h : HalfHourStamp) (s : State) : (endEpisodes q h s).clock = s.clock := (congrArg State.clock (endEpisodes_frame q h s) :)
@[simp] theorem endEpisodes_inputs (q : Subject → Bool) (h : HalfHourStamp) (s : State) : (endEpisodes q h s).inputs = s.inputs := (congrArg State.inputs (endEpisodes_frame q h s) :)
@[simp] theorem endEpisodes_slots (q : Subject → Bool) (h : HalfHourStamp) (s : State) : (endEpisodes q h s).slots = s.slots := (congrArg State.slots (endEpisodes_frame q h s) :)
@[simp] theorem endEpisodes_queue (q : Subject → Bool) (h : HalfHourStamp) (s : State) : (endEpisodes q h s).queue = s.queue := (congrArg State.queue (endEpisodes_frame q h s) :)
@[simp] theorem endEpisodes_channels (q : Subject → Bool) (h : HalfHourStamp) (s : State) : (endEpisodes q h s).channels = s.channels := (congrArg State.channels (endEpisodes_frame q h s) :)
@[simp] theorem endEpisodes_allowances (q : Subject → Bool) (h : HalfHourStamp) (s : State) : (endEpisodes q h s).allowances = s.allowances := (congrArg State.allowances (endEpisodes_frame q h s) :)
@[simp] theorem endEpisodes_episodeCounter (q : Subject → Bool) (h : HalfHourStamp) (s : State) : (endEpisodes q h s).episodeCounter = s.episodeCounter := (congrArg State.episodeCounter (endEpisodes_frame q h s) :)
@[simp] theorem endEpisodes_portA (q : Subject → Bool) (h : HalfHourStamp) (s : State) : (endEpisodes q h s).portA = s.portA := (congrArg State.portA (endEpisodes_frame q h s) :)
@[simp] theorem endEpisodes_portB (q : Subject → Bool) (h : HalfHourStamp) (s : State) : (endEpisodes q h s).portB = s.portB := (congrArg State.portB (endEpisodes_frame q h s) :)

@[simp] theorem appendGap_part (h : HalfHourStamp) (n : Nat) (s : State) : (appendGap h n s).part = s.part := rfl
@[simp] theorem appendGap_clock (h : HalfHourStamp) (n : Nat) (s : State) : (appendGap h n s).clock = s.clock := rfl
@[simp] theorem appendGap_inputs (h : HalfHourStamp) (n : Nat) (s : State) : (appendGap h n s).inputs = s.inputs := rfl
@[simp] theorem appendGap_slots (h : HalfHourStamp) (n : Nat) (s : State) : (appendGap h n s).slots = s.slots := rfl
@[simp] theorem appendGap_accounts (h : HalfHourStamp) (n : Nat) (s : State) : (appendGap h n s).accounts = s.accounts := rfl
@[simp] theorem appendGap_channels (h : HalfHourStamp) (n : Nat) (s : State) : (appendGap h n s).channels = s.channels := rfl
@[simp] theorem appendGap_allowances (h : HalfHourStamp) (n : Nat) (s : State) : (appendGap h n s).allowances = s.allowances := rfl
@[simp] theorem appendGap_episodes (h : HalfHourStamp) (n : Nat) (s : State) : (appendGap h n s).episodes = s.episodes := rfl
@[simp] theorem appendGap_episodeCounter (h : HalfHourStamp) (n : Nat) (s : State) : (appendGap h n s).episodeCounter = s.episodeCounter := rfl
@[simp] theorem appendGap_portA (h : HalfHourStamp) (n : Nat) (s : State) : (appendGap h n s).portA = s.portA := rfl
@[simp] theorem appendGap_portB (h : HalfHourStamp) (n : Nat) (s : State) : (appendGap h n s).portB = s.portB := rfl

@[simp] theorem setLastGap_part (g : GapEntry) (n : Nat) (s : State) : (setLastGap g n s).part = s.part := rfl
@[simp] theorem setLastGap_clock (g : GapEntry) (n : Nat) (s : State) : (setLastGap g n s).clock = s.clock := rfl
@[simp] theorem setLastGap_inputs (g : GapEntry) (n : Nat) (s : State) : (setLastGap g n s).inputs = s.inputs := rfl
@[simp] theorem setLastGap_slots (g : GapEntry) (n : Nat) (s : State) : (setLastGap g n s).slots = s.slots := rfl
@[simp] theorem setLastGap_accounts (g : GapEntry) (n : Nat) (s : State) : (setLastGap g n s).accounts = s.accounts := rfl
@[simp] theorem setLastGap_channels (g : GapEntry) (n : Nat) (s : State) : (setLastGap g n s).channels = s.channels := rfl
@[simp] theorem setLastGap_allowances (g : GapEntry) (n : Nat) (s : State) : (setLastGap g n s).allowances = s.allowances := rfl
@[simp] theorem setLastGap_episodes (g : GapEntry) (n : Nat) (s : State) : (setLastGap g n s).episodes = s.episodes := rfl
@[simp] theorem setLastGap_episodeCounter (g : GapEntry) (n : Nat) (s : State) : (setLastGap g n s).episodeCounter = s.episodeCounter := rfl
@[simp] theorem setLastGap_portA (g : GapEntry) (n : Nat) (s : State) : (setLastGap g n s).portA = s.portA := rfl
@[simp] theorem setLastGap_portB (g : GapEntry) (n : Nat) (s : State) : (setLastGap g n s).portB = s.portB := rfl

/-! ## recordGap -/

theorem recordGap_frame (h : HalfHourStamp) (s : State) :
    recordGap h s = { s with queue := (recordGap h s).queue, events := (recordGap h s).events } := by
  unfold recordGap; (repeat' split) <;> rfl

@[simp] theorem recordGap_part (h : HalfHourStamp) (s : State) : (recordGap h s).part = s.part := (congrArg State.part (recordGap_frame h s) :)
@[simp] theorem recordGap_clock (h : HalfHourStamp) (s : State) : (recordGap h s).clock = s.clock := (congrArg State.clock (recordGap_frame h s) :)
@[simp] theorem recordGap_inputs (h : HalfHourStamp) (s : State) : (recordGap h s).inputs = s.inputs := (congrArg State.inputs (recordGap_frame h s) :)
@[simp] theorem recordGap_slots (h : HalfHourStamp) (s : State) : (recordGap h s).slots = s.slots := (congrArg State.slots (recordGap_frame h s) :)
@[simp] theorem recordGap_accounts (h : HalfHourStamp) (s : State) : (recordGap h s).accounts = s.accounts := (congrArg State.accounts (recordGap_frame h s) :)
@[simp] theorem recordGap_channels (h : HalfHourStamp) (s : State) : (recordGap h s).channels = s.channels := (congrArg State.channels (recordGap_frame h s) :)
@[simp] theorem recordGap_allowances (h : HalfHourStamp) (s : State) : (recordGap h s).allowances = s.allowances := (congrArg State.allowances (recordGap_frame h s) :)
@[simp] theorem recordGap_episodes (h : HalfHourStamp) (s : State) : (recordGap h s).episodes = s.episodes := (congrArg State.episodes (recordGap_frame h s) :)
@[simp] theorem recordGap_episodeCounter (h : HalfHourStamp) (s : State) : (recordGap h s).episodeCounter = s.episodeCounter := (congrArg State.episodeCounter (recordGap_frame h s) :)
@[simp] theorem recordGap_portA (h : HalfHourStamp) (s : State) : (recordGap h s).portA = s.portA := (congrArg State.portA (recordGap_frame h s) :)
@[simp] theorem recordGap_portB (h : HalfHourStamp) (s : State) : (recordGap h s).portB = s.portB := (congrArg State.portB (recordGap_frame h s) :)

/-! ## offerBatch -/

theorem offerBatch_frame (h : HalfHourStamp) (l : List Entry) (s : State) :
    offerBatch h l s = { s with queue := (offerBatch h l s).queue, events := (offerBatch h l s).events, inFlight := (offerBatch h l s).inFlight, handOrder := (offerBatch h l s).handOrder } := by
  unfold offerBatch queueBatch; (repeat' split) <;> first | rfl | (rw [recordGap_frame]; rfl)

@[simp] theorem offerBatch_part (h : HalfHourStamp) (l : List Entry) (s : State) : (offerBatch h l s).part = s.part := (congrArg State.part (offerBatch_frame h l s) :)
@[simp] theorem offerBatch_clock (h : HalfHourStamp) (l : List Entry) (s : State) : (offerBatch h l s).clock = s.clock := (congrArg State.clock (offerBatch_frame h l s) :)
@[simp] theorem offerBatch_inputs (h : HalfHourStamp) (l : List Entry) (s : State) : (offerBatch h l s).inputs = s.inputs := (congrArg State.inputs (offerBatch_frame h l s) :)
@[simp] theorem offerBatch_slots (h : HalfHourStamp) (l : List Entry) (s : State) : (offerBatch h l s).slots = s.slots := (congrArg State.slots (offerBatch_frame h l s) :)
@[simp] theorem offerBatch_accounts (h : HalfHourStamp) (l : List Entry) (s : State) : (offerBatch h l s).accounts = s.accounts := (congrArg State.accounts (offerBatch_frame h l s) :)
@[simp] theorem offerBatch_channels (h : HalfHourStamp) (l : List Entry) (s : State) : (offerBatch h l s).channels = s.channels := (congrArg State.channels (offerBatch_frame h l s) :)
@[simp] theorem offerBatch_allowances (h : HalfHourStamp) (l : List Entry) (s : State) : (offerBatch h l s).allowances = s.allowances := (congrArg State.allowances (offerBatch_frame h l s) :)
@[simp] theorem offerBatch_episodes (h : HalfHourStamp) (l : List Entry) (s : State) : (offerBatch h l s).episodes = s.episodes := (congrArg State.episodes (offerBatch_frame h l s) :)
@[simp] theorem offerBatch_episodeCounter (h : HalfHourStamp) (l : List Entry) (s : State) : (offerBatch h l s).episodeCounter = s.episodeCounter := (congrArg State.episodeCounter (offerBatch_frame h l s) :)
@[simp] theorem offerBatch_portA (h : HalfHourStamp) (l : List Entry) (s : State) : (offerBatch h l s).portA = s.portA := (congrArg State.portA (offerBatch_frame h l s) :)
@[simp] theorem offerBatch_portB (h : HalfHourStamp) (l : List Entry) (s : State) : (offerBatch h l s).portB = s.portB := (congrArg State.portB (offerBatch_frame h l s) :)

@[simp] theorem restartHalfHour_part (s : State) : (restartHalfHour s).part = s.part := rfl
@[simp] theorem restartHalfHour_clock (s : State) : (restartHalfHour s).clock = s.clock := rfl
@[simp] theorem restartHalfHour_inputs (s : State) : (restartHalfHour s).inputs = s.inputs := rfl
@[simp] theorem restartHalfHour_slots (s : State) : (restartHalfHour s).slots = s.slots := rfl
@[simp] theorem restartHalfHour_queue (s : State) : (restartHalfHour s).queue = s.queue := rfl
@[simp] theorem restartHalfHour_accounts (s : State) : (restartHalfHour s).accounts = s.accounts := rfl
@[simp] theorem restartHalfHour_channels (s : State) : (restartHalfHour s).channels = s.channels := rfl
@[simp] theorem restartHalfHour_allowances (s : State) : (restartHalfHour s).allowances = s.allowances := rfl
@[simp] theorem restartHalfHour_episodes (s : State) : (restartHalfHour s).episodes = s.episodes := rfl
@[simp] theorem restartHalfHour_episodeCounter (s : State) : (restartHalfHour s).episodeCounter = s.episodeCounter := rfl
@[simp] theorem restartHalfHour_portA (s : State) : (restartHalfHour s).portA = s.portA := rfl
@[simp] theorem restartHalfHour_portB (s : State) : (restartHalfHour s).portB = s.portB := rfl

/-! ## closeHalfHour -/

theorem closeHalfHour_frame (h : HalfHourStamp) (s : State) :
    closeHalfHour h s = { s with queue := (closeHalfHour h s).queue, accumulators := (closeHalfHour h s).accumulators, counts := (closeHalfHour h s).counts, events := (closeHalfHour h s).events, inFlight := (closeHalfHour h s).inFlight, handOrder := (closeHalfHour h s).handOrder } := by
  unfold closeHalfHour; rw [offerBatch_frame]; rfl

@[simp] theorem closeHalfHour_part (h : HalfHourStamp) (s : State) : (closeHalfHour h s).part = s.part := (congrArg State.part (closeHalfHour_frame h s) :)
@[simp] theorem closeHalfHour_clock (h : HalfHourStamp) (s : State) : (closeHalfHour h s).clock = s.clock := (congrArg State.clock (closeHalfHour_frame h s) :)
@[simp] theorem closeHalfHour_inputs (h : HalfHourStamp) (s : State) : (closeHalfHour h s).inputs = s.inputs := (congrArg State.inputs (closeHalfHour_frame h s) :)
@[simp] theorem closeHalfHour_slots (h : HalfHourStamp) (s : State) : (closeHalfHour h s).slots = s.slots := (congrArg State.slots (closeHalfHour_frame h s) :)
@[simp] theorem closeHalfHour_accounts (h : HalfHourStamp) (s : State) : (closeHalfHour h s).accounts = s.accounts := (congrArg State.accounts (closeHalfHour_frame h s) :)
@[simp] theorem closeHalfHour_channels (h : HalfHourStamp) (s : State) : (closeHalfHour h s).channels = s.channels := (congrArg State.channels (closeHalfHour_frame h s) :)
@[simp] theorem closeHalfHour_allowances (h : HalfHourStamp) (s : State) : (closeHalfHour h s).allowances = s.allowances := (congrArg State.allowances (closeHalfHour_frame h s) :)
@[simp] theorem closeHalfHour_episodes (h : HalfHourStamp) (s : State) : (closeHalfHour h s).episodes = s.episodes := (congrArg State.episodes (closeHalfHour_frame h s) :)
@[simp] theorem closeHalfHour_episodeCounter (h : HalfHourStamp) (s : State) : (closeHalfHour h s).episodeCounter = s.episodeCounter := (congrArg State.episodeCounter (closeHalfHour_frame h s) :)
@[simp] theorem closeHalfHour_portA (h : HalfHourStamp) (s : State) : (closeHalfHour h s).portA = s.portA := (congrArg State.portA (closeHalfHour_frame h s) :)
@[simp] theorem closeHalfHour_portB (h : HalfHourStamp) (s : State) : (closeHalfHour h s).portB = s.portB := (congrArg State.portB (closeHalfHour_frame h s) :)

@[simp] theorem collectRecords_part (m : MinuteStamp) (b : Bool) (s : State) : (collectRecords m b s).part = s.part := rfl
@[simp] theorem collectRecords_clock (m : MinuteStamp) (b : Bool) (s : State) : (collectRecords m b s).clock = s.clock := rfl
@[simp] theorem collectRecords_queue (m : MinuteStamp) (b : Bool) (s : State) : (collectRecords m b s).queue = s.queue := rfl
@[simp] theorem collectRecords_accounts (m : MinuteStamp) (b : Bool) (s : State) : (collectRecords m b s).accounts = s.accounts := rfl
@[simp] theorem collectRecords_channels (m : MinuteStamp) (b : Bool) (s : State) : (collectRecords m b s).channels = s.channels := rfl
@[simp] theorem collectRecords_allowances (m : MinuteStamp) (b : Bool) (s : State) : (collectRecords m b s).allowances = s.allowances := rfl
@[simp] theorem collectRecords_episodes (m : MinuteStamp) (b : Bool) (s : State) : (collectRecords m b s).episodes = s.episodes := rfl
@[simp] theorem collectRecords_episodeCounter (m : MinuteStamp) (b : Bool) (s : State) : (collectRecords m b s).episodeCounter = s.episodeCounter := rfl
@[simp] theorem collectRecords_portA (m : MinuteStamp) (b : Bool) (s : State) : (collectRecords m b s).portA = s.portA := rfl
@[simp] theorem collectRecords_portB (m : MinuteStamp) (b : Bool) (s : State) : (collectRecords m b s).portB = s.portB := rfl

/-! ## collectMinute -/

theorem collectMinute_frame (m : MinuteStamp) (b : Bool) (s : State) :
    collectMinute m b s = { s with slots := (collectMinute m b s).slots, accumulators := (collectMinute m b s).accumulators, counts := (collectMinute m b s).counts, inputs := (collectMinute m b s).inputs, queue := (collectMinute m b s).queue, events := (collectMinute m b s).events, inFlight := (collectMinute m b s).inFlight, handOrder := (collectMinute m b s).handOrder } := by
  unfold collectMinute; dsimp only; split <;> split <;> first | rfl | (rw [closeHalfHour_frame]; rfl)

@[simp] theorem collectMinute_part (m : MinuteStamp) (b : Bool) (s : State) : (collectMinute m b s).part = s.part := (congrArg State.part (collectMinute_frame m b s) :)
@[simp] theorem collectMinute_clock (m : MinuteStamp) (b : Bool) (s : State) : (collectMinute m b s).clock = s.clock := (congrArg State.clock (collectMinute_frame m b s) :)
@[simp] theorem collectMinute_accounts (m : MinuteStamp) (b : Bool) (s : State) : (collectMinute m b s).accounts = s.accounts := (congrArg State.accounts (collectMinute_frame m b s) :)
@[simp] theorem collectMinute_channels (m : MinuteStamp) (b : Bool) (s : State) : (collectMinute m b s).channels = s.channels := (congrArg State.channels (collectMinute_frame m b s) :)
@[simp] theorem collectMinute_allowances (m : MinuteStamp) (b : Bool) (s : State) : (collectMinute m b s).allowances = s.allowances := (congrArg State.allowances (collectMinute_frame m b s) :)
@[simp] theorem collectMinute_episodes (m : MinuteStamp) (b : Bool) (s : State) : (collectMinute m b s).episodes = s.episodes := (congrArg State.episodes (collectMinute_frame m b s) :)
@[simp] theorem collectMinute_episodeCounter (m : MinuteStamp) (b : Bool) (s : State) : (collectMinute m b s).episodeCounter = s.episodeCounter := (congrArg State.episodeCounter (collectMinute_frame m b s) :)
@[simp] theorem collectMinute_portA (m : MinuteStamp) (b : Bool) (s : State) : (collectMinute m b s).portA = s.portA := (congrArg State.portA (collectMinute_frame m b s) :)
@[simp] theorem collectMinute_portB (m : MinuteStamp) (b : Bool) (s : State) : (collectMinute m b s).portB = s.portB := (congrArg State.portB (collectMinute_frame m b s) :)

@[simp] theorem freezeMarks_part (s : State) : (freezeMarks s).part = s.part := rfl
@[simp] theorem freezeMarks_clock (s : State) : (freezeMarks s).clock = s.clock := rfl
@[simp] theorem freezeMarks_slots (s : State) : (freezeMarks s).slots = s.slots := rfl
@[simp] theorem freezeMarks_queue (s : State) : (freezeMarks s).queue = s.queue := rfl
@[simp] theorem freezeMarks_accounts (s : State) : (freezeMarks s).accounts = s.accounts := rfl
@[simp] theorem freezeMarks_channels (s : State) : (freezeMarks s).channels = s.channels := rfl
@[simp] theorem freezeMarks_allowances (s : State) : (freezeMarks s).allowances = s.allowances := rfl
@[simp] theorem freezeMarks_episodes (s : State) : (freezeMarks s).episodes = s.episodes := rfl
@[simp] theorem freezeMarks_episodeCounter (s : State) : (freezeMarks s).episodeCounter = s.episodeCounter := rfl
@[simp] theorem freezeMarks_portA (s : State) : (freezeMarks s).portA = s.portA := rfl
@[simp] theorem freezeMarks_portB (s : State) : (freezeMarks s).portB = s.portB := rfl

@[simp] theorem startMarks_part (s : State) : (startMarks s).part = s.part := rfl
@[simp] theorem startMarks_clock (s : State) : (startMarks s).clock = s.clock := rfl
@[simp] theorem startMarks_slots (s : State) : (startMarks s).slots = s.slots := rfl
@[simp] theorem startMarks_queue (s : State) : (startMarks s).queue = s.queue := rfl
@[simp] theorem startMarks_accounts (s : State) : (startMarks s).accounts = s.accounts := rfl
@[simp] theorem startMarks_channels (s : State) : (startMarks s).channels = s.channels := rfl
@[simp] theorem startMarks_allowances (s : State) : (startMarks s).allowances = s.allowances := rfl
@[simp] theorem startMarks_episodes (s : State) : (startMarks s).episodes = s.episodes := rfl
@[simp] theorem startMarks_episodeCounter (s : State) : (startMarks s).episodeCounter = s.episodeCounter := rfl
@[simp] theorem startMarks_portA (s : State) : (startMarks s).portA = s.portA := rfl
@[simp] theorem startMarks_portB (s : State) : (startMarks s).portB = s.portB := rfl

/-! ## collectGrace -/

theorem collectGrace_frame (s : State) :
    collectGrace s = { s with slots := (collectGrace s).slots, accumulators := (collectGrace s).accumulators, counts := (collectGrace s).counts, inputs := (collectGrace s).inputs, queue := (collectGrace s).queue, events := (collectGrace s).events, clock := (collectGrace s).clock, inFlight := (collectGrace s).inFlight, handOrder := (collectGrace s).handOrder } := by
  unfold collectGrace; split
  · rw [collectMinute_frame]
  · rfl

@[simp] theorem collectGrace_part (s : State) : (collectGrace s).part = s.part := (congrArg State.part (collectGrace_frame s) :)
@[simp] theorem collectGrace_accounts (s : State) : (collectGrace s).accounts = s.accounts := (congrArg State.accounts (collectGrace_frame s) :)
@[simp] theorem collectGrace_channels (s : State) : (collectGrace s).channels = s.channels := (congrArg State.channels (collectGrace_frame s) :)
@[simp] theorem collectGrace_allowances (s : State) : (collectGrace s).allowances = s.allowances := (congrArg State.allowances (collectGrace_frame s) :)
@[simp] theorem collectGrace_episodes (s : State) : (collectGrace s).episodes = s.episodes := (congrArg State.episodes (collectGrace_frame s) :)
@[simp] theorem collectGrace_episodeCounter (s : State) : (collectGrace s).episodeCounter = s.episodeCounter := (congrArg State.episodeCounter (collectGrace_frame s) :)
@[simp] theorem collectGrace_portA (s : State) : (collectGrace s).portA = s.portA := (congrArg State.portA (collectGrace_frame s) :)
@[simp] theorem collectGrace_portB (s : State) : (collectGrace s).portB = s.portB := (congrArg State.portB (collectGrace_frame s) :)

/-! ## startGrace -/

theorem startGrace_frame (b : Bool) (s : State) :
    startGrace b s = { s with slots := (startGrace b s).slots, accumulators := (startGrace b s).accumulators, counts := (startGrace b s).counts, inputs := (startGrace b s).inputs, queue := (startGrace b s).queue, events := (startGrace b s).events, clock := (startGrace b s).clock, inFlight := (startGrace b s).inFlight, handOrder := (startGrace b s).handOrder } := by
  unfold startGrace; dsimp only; split
  · rw [collectGrace_frame]; rfl
  · rfl

@[simp] theorem startGrace_part (b : Bool) (s : State) : (startGrace b s).part = s.part := (congrArg State.part (startGrace_frame b s) :)
@[simp] theorem startGrace_accounts (b : Bool) (s : State) : (startGrace b s).accounts = s.accounts := (congrArg State.accounts (startGrace_frame b s) :)
@[simp] theorem startGrace_channels (b : Bool) (s : State) : (startGrace b s).channels = s.channels := (congrArg State.channels (startGrace_frame b s) :)
@[simp] theorem startGrace_allowances (b : Bool) (s : State) : (startGrace b s).allowances = s.allowances := (congrArg State.allowances (startGrace_frame b s) :)
@[simp] theorem startGrace_episodes (b : Bool) (s : State) : (startGrace b s).episodes = s.episodes := (congrArg State.episodes (startGrace_frame b s) :)
@[simp] theorem startGrace_episodeCounter (b : Bool) (s : State) : (startGrace b s).episodeCounter = s.episodeCounter := (congrArg State.episodeCounter (startGrace_frame b s) :)
@[simp] theorem startGrace_portA (b : Bool) (s : State) : (startGrace b s).portA = s.portA := (congrArg State.portA (startGrace_frame b s) :)
@[simp] theorem startGrace_portB (b : Bool) (s : State) : (startGrace b s).portB = s.portB := (congrArg State.portB (startGrace_frame b s) :)

@[simp] theorem restartSupervision_part (b : Bool) (s : State) : (restartSupervision b s).part = s.part := rfl
@[simp] theorem restartSupervision_inputs (b : Bool) (s : State) : (restartSupervision b s).inputs = s.inputs := rfl
@[simp] theorem restartSupervision_slots (b : Bool) (s : State) : (restartSupervision b s).slots = s.slots := rfl
@[simp] theorem restartSupervision_queue (b : Bool) (s : State) : (restartSupervision b s).queue = s.queue := rfl
@[simp] theorem restartSupervision_accounts (b : Bool) (s : State) : (restartSupervision b s).accounts = s.accounts := rfl
@[simp] theorem restartSupervision_channels (b : Bool) (s : State) : (restartSupervision b s).channels = s.channels := rfl
@[simp] theorem restartSupervision_allowances (b : Bool) (s : State) : (restartSupervision b s).allowances = s.allowances := rfl
@[simp] theorem restartSupervision_episodes (b : Bool) (s : State) : (restartSupervision b s).episodes = s.episodes := rfl
@[simp] theorem restartSupervision_episodeCounter (b : Bool) (s : State) : (restartSupervision b s).episodeCounter = s.episodeCounter := rfl
@[simp] theorem restartSupervision_portA (b : Bool) (s : State) : (restartSupervision b s).portA = s.portA := rfl
@[simp] theorem restartSupervision_portB (b : Bool) (s : State) : (restartSupervision b s).portB = s.portB := rfl

/-! ## endOfRange -/

theorem endOfRange_frame (b : Bool) (s : State) :
    endOfRange b s = { s with slots := (endOfRange b s).slots, accumulators := (endOfRange b s).accumulators, counts := (endOfRange b s).counts, inputs := (endOfRange b s).inputs, queue := (endOfRange b s).queue, events := (endOfRange b s).events, clock := (endOfRange b s).clock, inFlight := (endOfRange b s).inFlight, handOrder := (endOfRange b s).handOrder } := by
  unfold endOfRange; rw [collectMinute_frame]; rfl

@[simp] theorem endOfRange_part (b : Bool) (s : State) : (endOfRange b s).part = s.part := (congrArg State.part (endOfRange_frame b s) :)
@[simp] theorem endOfRange_accounts (b : Bool) (s : State) : (endOfRange b s).accounts = s.accounts := (congrArg State.accounts (endOfRange_frame b s) :)
@[simp] theorem endOfRange_channels (b : Bool) (s : State) : (endOfRange b s).channels = s.channels := (congrArg State.channels (endOfRange_frame b s) :)
@[simp] theorem endOfRange_allowances (b : Bool) (s : State) : (endOfRange b s).allowances = s.allowances := (congrArg State.allowances (endOfRange_frame b s) :)
@[simp] theorem endOfRange_episodes (b : Bool) (s : State) : (endOfRange b s).episodes = s.episodes := (congrArg State.episodes (endOfRange_frame b s) :)
@[simp] theorem endOfRange_episodeCounter (b : Bool) (s : State) : (endOfRange b s).episodeCounter = s.episodeCounter := (congrArg State.episodeCounter (endOfRange_frame b s) :)
@[simp] theorem endOfRange_portA (b : Bool) (s : State) : (endOfRange b s).portA = s.portA := (congrArg State.portA (endOfRange_frame b s) :)
@[simp] theorem endOfRange_portB (b : Bool) (s : State) : (endOfRange b s).portB = s.portB := (congrArg State.portB (endOfRange_frame b s) :)

/-! ## boundary -/

theorem boundary_frame (b : Bool) (s : State) :
    boundary b s = { s with slots := (boundary b s).slots, accumulators := (boundary b s).accumulators, counts := (boundary b s).counts, inputs := (boundary b s).inputs, queue := (boundary b s).queue, events := (boundary b s).events, clock := (boundary b s).clock, inFlight := (boundary b s).inFlight, handOrder := (boundary b s).handOrder } := by
  unfold boundary; dsimp only; rw [collectGrace_frame s]; split
  · rw [endOfRange_frame]
  · rw [startGrace_frame]; rfl

@[simp] theorem boundary_part (b : Bool) (s : State) : (boundary b s).part = s.part := (congrArg State.part (boundary_frame b s) :)
@[simp] theorem boundary_accounts (b : Bool) (s : State) : (boundary b s).accounts = s.accounts := (congrArg State.accounts (boundary_frame b s) :)
@[simp] theorem boundary_channels (b : Bool) (s : State) : (boundary b s).channels = s.channels := (congrArg State.channels (boundary_frame b s) :)
@[simp] theorem boundary_allowances (b : Bool) (s : State) : (boundary b s).allowances = s.allowances := (congrArg State.allowances (boundary_frame b s) :)
@[simp] theorem boundary_episodes (b : Bool) (s : State) : (boundary b s).episodes = s.episodes := (congrArg State.episodes (boundary_frame b s) :)
@[simp] theorem boundary_episodeCounter (b : Bool) (s : State) : (boundary b s).episodeCounter = s.episodeCounter := (congrArg State.episodeCounter (boundary_frame b s) :)
@[simp] theorem boundary_portA (b : Bool) (s : State) : (boundary b s).portA = s.portA := (congrArg State.portA (boundary_frame b s) :)
@[simp] theorem boundary_portB (b : Bool) (s : State) : (boundary b s).portB = s.portB := (congrArg State.portB (boundary_frame b s) :)

/-! ## loseClock -/

theorem loseClock_frame (s : State) :
    loseClock s = { s with clock := (loseClock s).clock, events := (loseClock s).events } := by
  unfold loseClock; split <;> rfl

@[simp] theorem loseClock_part (s : State) : (loseClock s).part = s.part := (congrArg State.part (loseClock_frame s) :)
@[simp] theorem loseClock_inputs (s : State) : (loseClock s).inputs = s.inputs := (congrArg State.inputs (loseClock_frame s) :)
@[simp] theorem loseClock_slots (s : State) : (loseClock s).slots = s.slots := (congrArg State.slots (loseClock_frame s) :)
@[simp] theorem loseClock_queue (s : State) : (loseClock s).queue = s.queue := (congrArg State.queue (loseClock_frame s) :)
@[simp] theorem loseClock_accounts (s : State) : (loseClock s).accounts = s.accounts := (congrArg State.accounts (loseClock_frame s) :)
@[simp] theorem loseClock_channels (s : State) : (loseClock s).channels = s.channels := (congrArg State.channels (loseClock_frame s) :)
@[simp] theorem loseClock_allowances (s : State) : (loseClock s).allowances = s.allowances := (congrArg State.allowances (loseClock_frame s) :)
@[simp] theorem loseClock_episodes (s : State) : (loseClock s).episodes = s.episodes := (congrArg State.episodes (loseClock_frame s) :)
@[simp] theorem loseClock_episodeCounter (s : State) : (loseClock s).episodeCounter = s.episodeCounter := (congrArg State.episodeCounter (loseClock_frame s) :)
@[simp] theorem loseClock_portA (s : State) : (loseClock s).portA = s.portA := (congrArg State.portA (loseClock_frame s) :)
@[simp] theorem loseClock_portB (s : State) : (loseClock s).portB = s.portB := (congrArg State.portB (loseClock_frame s) :)

@[simp] theorem stopClock_part (s : State) : (stopClock s).part = s.part := rfl
@[simp] theorem stopClock_inputs (s : State) : (stopClock s).inputs = s.inputs := rfl
@[simp] theorem stopClock_slots (s : State) : (stopClock s).slots = s.slots := rfl
@[simp] theorem stopClock_queue (s : State) : (stopClock s).queue = s.queue := rfl
@[simp] theorem stopClock_accounts (s : State) : (stopClock s).accounts = s.accounts := rfl
@[simp] theorem stopClock_channels (s : State) : (stopClock s).channels = s.channels := rfl
@[simp] theorem stopClock_allowances (s : State) : (stopClock s).allowances = s.allowances := rfl
@[simp] theorem stopClock_episodes (s : State) : (stopClock s).episodes = s.episodes := rfl
@[simp] theorem stopClock_episodeCounter (s : State) : (stopClock s).episodeCounter = s.episodeCounter := rfl
@[simp] theorem stopClock_portA (s : State) : (stopClock s).portA = s.portA := rfl
@[simp] theorem stopClock_portB (s : State) : (stopClock s).portB = s.portB := rfl

/-! ## stopBlocks -/

theorem stopBlocks_frame (s : State) :
    stopBlocks s = { s with slots := (stopBlocks s).slots, accumulators := (stopBlocks s).accumulators, counts := (stopBlocks s).counts, inputs := (stopBlocks s).inputs, queue := (stopBlocks s).queue, events := (stopBlocks s).events, clock := (stopBlocks s).clock, inFlight := (stopBlocks s).inFlight, handOrder := (stopBlocks s).handOrder } := by
  unfold stopBlocks; split <;> first | rfl | (rw [collectGrace_frame]; rfl)

@[simp] theorem stopBlocks_accounts (s : State) : (stopBlocks s).accounts = s.accounts := (congrArg State.accounts (stopBlocks_frame s) :)
@[simp] theorem stopBlocks_channels (s : State) : (stopBlocks s).channels = s.channels := (congrArg State.channels (stopBlocks_frame s) :)
@[simp] theorem stopBlocks_allowances (s : State) : (stopBlocks s).allowances = s.allowances := (congrArg State.allowances (stopBlocks_frame s) :)
@[simp] theorem stopBlocks_episodes (s : State) : (stopBlocks s).episodes = s.episodes := (congrArg State.episodes (stopBlocks_frame s) :)
@[simp] theorem stopBlocks_episodeCounter (s : State) : (stopBlocks s).episodeCounter = s.episodeCounter := (congrArg State.episodeCounter (stopBlocks_frame s) :)
@[simp] theorem stopBlocks_portA (s : State) : (stopBlocks s).portA = s.portA := (congrArg State.portA (stopBlocks_frame s) :)
@[simp] theorem stopBlocks_portB (s : State) : (stopBlocks s).portB = s.portB := (congrArg State.portB (stopBlocks_frame s) :)
@[simp] theorem stopBlocks_part (s : State) : (stopBlocks s).part = s.part := (congrArg State.part (stopBlocks_frame s) :)

@[simp] theorem mapSlots_part (f : PostingSlot → PostingSlot) (s : State) : (mapSlots f s).part = s.part := rfl
@[simp] theorem mapSlots_clock (f : PostingSlot → PostingSlot) (s : State) : (mapSlots f s).clock = s.clock := rfl
@[simp] theorem mapSlots_inputs (f : PostingSlot → PostingSlot) (s : State) : (mapSlots f s).inputs = s.inputs := rfl
@[simp] theorem mapSlots_queue (f : PostingSlot → PostingSlot) (s : State) : (mapSlots f s).queue = s.queue := rfl
@[simp] theorem mapSlots_accounts (f : PostingSlot → PostingSlot) (s : State) : (mapSlots f s).accounts = s.accounts := rfl
@[simp] theorem mapSlots_channels (f : PostingSlot → PostingSlot) (s : State) : (mapSlots f s).channels = s.channels := rfl
@[simp] theorem mapSlots_allowances (f : PostingSlot → PostingSlot) (s : State) : (mapSlots f s).allowances = s.allowances := rfl
@[simp] theorem mapSlots_episodes (f : PostingSlot → PostingSlot) (s : State) : (mapSlots f s).episodes = s.episodes := rfl
@[simp] theorem mapSlots_episodeCounter (f : PostingSlot → PostingSlot) (s : State) : (mapSlots f s).episodeCounter = s.episodeCounter := rfl
@[simp] theorem mapSlots_portA (f : PostingSlot → PostingSlot) (s : State) : (mapSlots f s).portA = s.portA := rfl
@[simp] theorem mapSlots_portB (f : PostingSlot → PostingSlot) (s : State) : (mapSlots f s).portB = s.portB := rfl

@[simp] theorem enterRun_part (m : MinuteStamp) (s : State) : (enterRun m s).part = s.part := rfl
@[simp] theorem enterRun_inputs (m : MinuteStamp) (s : State) : (enterRun m s).inputs = s.inputs := rfl
@[simp] theorem enterRun_slots (m : MinuteStamp) (s : State) : (enterRun m s).slots = s.slots := rfl
@[simp] theorem enterRun_queue (m : MinuteStamp) (s : State) : (enterRun m s).queue = s.queue := rfl
@[simp] theorem enterRun_accounts (m : MinuteStamp) (s : State) : (enterRun m s).accounts = s.accounts := rfl
@[simp] theorem enterRun_channels (m : MinuteStamp) (s : State) : (enterRun m s).channels = s.channels := rfl
@[simp] theorem enterRun_allowances (m : MinuteStamp) (s : State) : (enterRun m s).allowances = s.allowances := rfl
@[simp] theorem enterRun_episodes (m : MinuteStamp) (s : State) : (enterRun m s).episodes = s.episodes := rfl
@[simp] theorem enterRun_episodeCounter (m : MinuteStamp) (s : State) : (enterRun m s).episodeCounter = s.episodeCounter := rfl
@[simp] theorem enterRun_portA (m : MinuteStamp) (s : State) : (enterRun m s).portA = s.portA := rfl
@[simp] theorem enterRun_portB (m : MinuteStamp) (s : State) : (enterRun m s).portB = s.portB := rfl

@[simp] theorem stateCalendar_part (m : MinuteStamp) (s : State) : (stateCalendar m s).part = s.part := rfl
@[simp] theorem stateCalendar_queue (m : MinuteStamp) (s : State) : (stateCalendar m s).queue = s.queue := rfl
@[simp] theorem stateCalendar_accounts (m : MinuteStamp) (s : State) : (stateCalendar m s).accounts = s.accounts := rfl
@[simp] theorem stateCalendar_channels (m : MinuteStamp) (s : State) : (stateCalendar m s).channels = s.channels := rfl
@[simp] theorem stateCalendar_allowances (m : MinuteStamp) (s : State) : (stateCalendar m s).allowances = s.allowances := rfl
@[simp] theorem stateCalendar_episodes (m : MinuteStamp) (s : State) : (stateCalendar m s).episodes = s.episodes := rfl
@[simp] theorem stateCalendar_episodeCounter (m : MinuteStamp) (s : State) : (stateCalendar m s).episodeCounter = s.episodeCounter := rfl
@[simp] theorem stateCalendar_portA (m : MinuteStamp) (s : State) : (stateCalendar m s).portA = s.portA := rfl
@[simp] theorem stateCalendar_portB (m : MinuteStamp) (s : State) : (stateCalendar m s).portB = s.portB := rfl

@[simp] theorem resumeAt_part (m : MinuteStamp) (s : State) : (resumeAt m s).part = s.part := rfl
@[simp] theorem resumeAt_queue (m : MinuteStamp) (s : State) : (resumeAt m s).queue = s.queue := rfl
@[simp] theorem resumeAt_accounts (m : MinuteStamp) (s : State) : (resumeAt m s).accounts = s.accounts := rfl
@[simp] theorem resumeAt_channels (m : MinuteStamp) (s : State) : (resumeAt m s).channels = s.channels := rfl
@[simp] theorem resumeAt_allowances (m : MinuteStamp) (s : State) : (resumeAt m s).allowances = s.allowances := rfl
@[simp] theorem resumeAt_episodes (m : MinuteStamp) (s : State) : (resumeAt m s).episodes = s.episodes := rfl
@[simp] theorem resumeAt_episodeCounter (m : MinuteStamp) (s : State) : (resumeAt m s).episodeCounter = s.episodeCounter := rfl
@[simp] theorem resumeAt_portA (m : MinuteStamp) (s : State) : (resumeAt m s).portA = s.portA := rfl
@[simp] theorem resumeAt_portB (m : MinuteStamp) (s : State) : (resumeAt m s).portB = s.portB := rfl

/-! ## validEpisode -/

theorem validEpisode_frame (i : SlotNo) (t : Terms) (v : Nat) (h : HalfHourStamp) (s : State) :
    validEpisode i t v h s = { s with accounts := (validEpisode i t v h s).accounts, episodes := (validEpisode i t v h s).episodes, episodeCounter := (validEpisode i t v h s).episodeCounter, events := (validEpisode i t v h s).events } := by
  unfold validEpisode; (repeat' split) <;> first | rfl | rw [qualify_frame] | rw [endEpisodes_frame]

@[simp] theorem validEpisode_part (i : SlotNo) (t : Terms) (v : Nat) (h : HalfHourStamp) (s : State) : (validEpisode i t v h s).part = s.part := (congrArg State.part (validEpisode_frame i t v h s) :)
@[simp] theorem validEpisode_clock (i : SlotNo) (t : Terms) (v : Nat) (h : HalfHourStamp) (s : State) : (validEpisode i t v h s).clock = s.clock := (congrArg State.clock (validEpisode_frame i t v h s) :)
@[simp] theorem validEpisode_inputs (i : SlotNo) (t : Terms) (v : Nat) (h : HalfHourStamp) (s : State) : (validEpisode i t v h s).inputs = s.inputs := (congrArg State.inputs (validEpisode_frame i t v h s) :)
@[simp] theorem validEpisode_slots (i : SlotNo) (t : Terms) (v : Nat) (h : HalfHourStamp) (s : State) : (validEpisode i t v h s).slots = s.slots := (congrArg State.slots (validEpisode_frame i t v h s) :)
@[simp] theorem validEpisode_queue (i : SlotNo) (t : Terms) (v : Nat) (h : HalfHourStamp) (s : State) : (validEpisode i t v h s).queue = s.queue := (congrArg State.queue (validEpisode_frame i t v h s) :)
@[simp] theorem validEpisode_channels (i : SlotNo) (t : Terms) (v : Nat) (h : HalfHourStamp) (s : State) : (validEpisode i t v h s).channels = s.channels := (congrArg State.channels (validEpisode_frame i t v h s) :)
@[simp] theorem validEpisode_allowances (i : SlotNo) (t : Terms) (v : Nat) (h : HalfHourStamp) (s : State) : (validEpisode i t v h s).allowances = s.allowances := (congrArg State.allowances (validEpisode_frame i t v h s) :)
@[simp] theorem validEpisode_portA (i : SlotNo) (t : Terms) (v : Nat) (h : HalfHourStamp) (s : State) : (validEpisode i t v h s).portA = s.portA := (congrArg State.portA (validEpisode_frame i t v h s) :)
@[simp] theorem validEpisode_portB (i : SlotNo) (t : Terms) (v : Nat) (h : HalfHourStamp) (s : State) : (validEpisode i t v h s).portB = s.portB := (congrArg State.portB (validEpisode_frame i t v h s) :)

/-! ## absorbInternal -/

theorem absorbInternal_frame (e : ResultEntry) (s : State) :
    absorbInternal e s = { s with accounts := (absorbInternal e s).accounts } := by
  unfold absorbInternal; split <;> rfl

@[simp] theorem absorbInternal_part (e : ResultEntry) (s : State) : (absorbInternal e s).part = s.part := (congrArg State.part (absorbInternal_frame e s) :)
@[simp] theorem absorbInternal_clock (e : ResultEntry) (s : State) : (absorbInternal e s).clock = s.clock := (congrArg State.clock (absorbInternal_frame e s) :)
@[simp] theorem absorbInternal_inputs (e : ResultEntry) (s : State) : (absorbInternal e s).inputs = s.inputs := (congrArg State.inputs (absorbInternal_frame e s) :)
@[simp] theorem absorbInternal_slots (e : ResultEntry) (s : State) : (absorbInternal e s).slots = s.slots := (congrArg State.slots (absorbInternal_frame e s) :)
@[simp] theorem absorbInternal_queue (e : ResultEntry) (s : State) : (absorbInternal e s).queue = s.queue := (congrArg State.queue (absorbInternal_frame e s) :)
@[simp] theorem absorbInternal_channels (e : ResultEntry) (s : State) : (absorbInternal e s).channels = s.channels := (congrArg State.channels (absorbInternal_frame e s) :)
@[simp] theorem absorbInternal_allowances (e : ResultEntry) (s : State) : (absorbInternal e s).allowances = s.allowances := (congrArg State.allowances (absorbInternal_frame e s) :)
@[simp] theorem absorbInternal_episodes (e : ResultEntry) (s : State) : (absorbInternal e s).episodes = s.episodes := (congrArg State.episodes (absorbInternal_frame e s) :)
@[simp] theorem absorbInternal_episodeCounter (e : ResultEntry) (s : State) : (absorbInternal e s).episodeCounter = s.episodeCounter := (congrArg State.episodeCounter (absorbInternal_frame e s) :)
@[simp] theorem absorbInternal_portA (e : ResultEntry) (s : State) : (absorbInternal e s).portA = s.portA := (congrArg State.portA (absorbInternal_frame e s) :)
@[simp] theorem absorbInternal_portB (e : ResultEntry) (s : State) : (absorbInternal e s).portB = s.portB := (congrArg State.portB (absorbInternal_frame e s) :)

/-! ## absorbClass -/

theorem absorbClass_frame (e : ResultEntry) (s : State) :
    absorbClass e s = { s with accounts := (absorbClass e s).accounts, episodes := (absorbClass e s).episodes, episodeCounter := (absorbClass e s).episodeCounter, events := (absorbClass e s).events } := by
  unfold absorbClass; dsimp only; split <;> first | rfl | (rw [validEpisode_frame]; rfl) | (rw [endEpisodes_frame]; rfl)

@[simp] theorem absorbClass_part (e : ResultEntry) (s : State) : (absorbClass e s).part = s.part := (congrArg State.part (absorbClass_frame e s) :)
@[simp] theorem absorbClass_clock (e : ResultEntry) (s : State) : (absorbClass e s).clock = s.clock := (congrArg State.clock (absorbClass_frame e s) :)
@[simp] theorem absorbClass_inputs (e : ResultEntry) (s : State) : (absorbClass e s).inputs = s.inputs := (congrArg State.inputs (absorbClass_frame e s) :)
@[simp] theorem absorbClass_slots (e : ResultEntry) (s : State) : (absorbClass e s).slots = s.slots := (congrArg State.slots (absorbClass_frame e s) :)
@[simp] theorem absorbClass_queue (e : ResultEntry) (s : State) : (absorbClass e s).queue = s.queue := (congrArg State.queue (absorbClass_frame e s) :)
@[simp] theorem absorbClass_channels (e : ResultEntry) (s : State) : (absorbClass e s).channels = s.channels := (congrArg State.channels (absorbClass_frame e s) :)
@[simp] theorem absorbClass_allowances (e : ResultEntry) (s : State) : (absorbClass e s).allowances = s.allowances := (congrArg State.allowances (absorbClass_frame e s) :)
@[simp] theorem absorbClass_portA (e : ResultEntry) (s : State) : (absorbClass e s).portA = s.portA := (congrArg State.portA (absorbClass_frame e s) :)
@[simp] theorem absorbClass_portB (e : ResultEntry) (s : State) : (absorbClass e s).portB = s.portB := (congrArg State.portB (absorbClass_frame e s) :)

/-! ## absorbResult -/

theorem absorbResult_frame (e : ResultEntry) (s : State) :
    absorbResult e s = { s with accounts := (absorbResult e s).accounts, episodes := (absorbResult e s).episodes, episodeCounter := (absorbResult e s).episodeCounter, events := (absorbResult e s).events } := by
  unfold absorbResult; split
  · rw [absorbInternal_frame, absorbClass_frame]
  · rfl

@[simp] theorem absorbResult_part (e : ResultEntry) (s : State) : (absorbResult e s).part = s.part := (congrArg State.part (absorbResult_frame e s) :)
@[simp] theorem absorbResult_clock (e : ResultEntry) (s : State) : (absorbResult e s).clock = s.clock := (congrArg State.clock (absorbResult_frame e s) :)
@[simp] theorem absorbResult_inputs (e : ResultEntry) (s : State) : (absorbResult e s).inputs = s.inputs := (congrArg State.inputs (absorbResult_frame e s) :)
@[simp] theorem absorbResult_slots (e : ResultEntry) (s : State) : (absorbResult e s).slots = s.slots := (congrArg State.slots (absorbResult_frame e s) :)
@[simp] theorem absorbResult_queue (e : ResultEntry) (s : State) : (absorbResult e s).queue = s.queue := (congrArg State.queue (absorbResult_frame e s) :)
@[simp] theorem absorbResult_channels (e : ResultEntry) (s : State) : (absorbResult e s).channels = s.channels := (congrArg State.channels (absorbResult_frame e s) :)
@[simp] theorem absorbResult_allowances (e : ResultEntry) (s : State) : (absorbResult e s).allowances = s.allowances := (congrArg State.allowances (absorbResult_frame e s) :)
@[simp] theorem absorbResult_portA (e : ResultEntry) (s : State) : (absorbResult e s).portA = s.portA := (congrArg State.portA (absorbResult_frame e s) :)
@[simp] theorem absorbResult_portB (e : ResultEntry) (s : State) : (absorbResult e s).portB = s.portB := (congrArg State.portB (absorbResult_frame e s) :)

@[simp] theorem setLast_part (e : StackEntry) (s : State) : (setLast e s).part = s.part := rfl
@[simp] theorem setLast_clock (e : StackEntry) (s : State) : (setLast e s).clock = s.clock := rfl
@[simp] theorem setLast_inputs (e : StackEntry) (s : State) : (setLast e s).inputs = s.inputs := rfl
@[simp] theorem setLast_slots (e : StackEntry) (s : State) : (setLast e s).slots = s.slots := rfl
@[simp] theorem setLast_queue (e : StackEntry) (s : State) : (setLast e s).queue = s.queue := rfl
@[simp] theorem setLast_accounts (e : StackEntry) (s : State) : (setLast e s).accounts = s.accounts := rfl
@[simp] theorem setLast_channels (e : StackEntry) (s : State) : (setLast e s).channels = s.channels := rfl
@[simp] theorem setLast_episodes (e : StackEntry) (s : State) : (setLast e s).episodes = s.episodes := rfl
@[simp] theorem setLast_episodeCounter (e : StackEntry) (s : State) : (setLast e s).episodeCounter = s.episodeCounter := rfl
@[simp] theorem setLast_portA (e : StackEntry) (s : State) : (setLast e s).portA = s.portA := rfl
@[simp] theorem setLast_portB (e : StackEntry) (s : State) : (setLast e s).portB = s.portB := rfl

/-! ## absorbStack -/

theorem absorbStack_frame (e : StackEntry) (s : State) :
    absorbStack e s = { s with accounts := (absorbStack e s).accounts, allowances := (absorbStack e s).allowances, episodes := (absorbStack e s).episodes, episodeCounter := (absorbStack e s).episodeCounter, events := (absorbStack e s).events } := by
  unfold absorbStack; dsimp only; split
  · rw [evaluateStop_frame, qualify_frame]; rfl
  · rw [endEpisodes_frame]; rfl

@[simp] theorem absorbStack_part (e : StackEntry) (s : State) : (absorbStack e s).part = s.part := (congrArg State.part (absorbStack_frame e s) :)
@[simp] theorem absorbStack_clock (e : StackEntry) (s : State) : (absorbStack e s).clock = s.clock := (congrArg State.clock (absorbStack_frame e s) :)
@[simp] theorem absorbStack_inputs (e : StackEntry) (s : State) : (absorbStack e s).inputs = s.inputs := (congrArg State.inputs (absorbStack_frame e s) :)
@[simp] theorem absorbStack_slots (e : StackEntry) (s : State) : (absorbStack e s).slots = s.slots := (congrArg State.slots (absorbStack_frame e s) :)
@[simp] theorem absorbStack_queue (e : StackEntry) (s : State) : (absorbStack e s).queue = s.queue := (congrArg State.queue (absorbStack_frame e s) :)
@[simp] theorem absorbStack_channels (e : StackEntry) (s : State) : (absorbStack e s).channels = s.channels := (congrArg State.channels (absorbStack_frame e s) :)
@[simp] theorem absorbStack_portA (e : StackEntry) (s : State) : (absorbStack e s).portA = s.portA := (congrArg State.portA (absorbStack_frame e s) :)
@[simp] theorem absorbStack_portB (e : StackEntry) (s : State) : (absorbStack e s).portB = s.portB := (congrArg State.portB (absorbStack_frame e s) :)

/-! ## closeDayOf -/

theorem closeDayOf_frame (y d : Nat) (i : SlotNo) (s : State) :
    closeDayOf y d i s = { s with accounts := (closeDayOf y d i s).accounts, events := (closeDayOf y d i s).events } := by
  unfold closeDayOf; dsimp only; (repeat' split) <;> rfl

@[simp] theorem closeDayOf_part (y d : Nat) (i : SlotNo) (s : State) : (closeDayOf y d i s).part = s.part := (congrArg State.part (closeDayOf_frame y d i s) :)
@[simp] theorem closeDayOf_clock (y d : Nat) (i : SlotNo) (s : State) : (closeDayOf y d i s).clock = s.clock := (congrArg State.clock (closeDayOf_frame y d i s) :)
@[simp] theorem closeDayOf_inputs (y d : Nat) (i : SlotNo) (s : State) : (closeDayOf y d i s).inputs = s.inputs := (congrArg State.inputs (closeDayOf_frame y d i s) :)
@[simp] theorem closeDayOf_slots (y d : Nat) (i : SlotNo) (s : State) : (closeDayOf y d i s).slots = s.slots := (congrArg State.slots (closeDayOf_frame y d i s) :)
@[simp] theorem closeDayOf_queue (y d : Nat) (i : SlotNo) (s : State) : (closeDayOf y d i s).queue = s.queue := (congrArg State.queue (closeDayOf_frame y d i s) :)
@[simp] theorem closeDayOf_channels (y d : Nat) (i : SlotNo) (s : State) : (closeDayOf y d i s).channels = s.channels := (congrArg State.channels (closeDayOf_frame y d i s) :)
@[simp] theorem closeDayOf_allowances (y d : Nat) (i : SlotNo) (s : State) : (closeDayOf y d i s).allowances = s.allowances := (congrArg State.allowances (closeDayOf_frame y d i s) :)
@[simp] theorem closeDayOf_episodes (y d : Nat) (i : SlotNo) (s : State) : (closeDayOf y d i s).episodes = s.episodes := (congrArg State.episodes (closeDayOf_frame y d i s) :)
@[simp] theorem closeDayOf_episodeCounter (y d : Nat) (i : SlotNo) (s : State) : (closeDayOf y d i s).episodeCounter = s.episodeCounter := (congrArg State.episodeCounter (closeDayOf_frame y d i s) :)
@[simp] theorem closeDayOf_portA (y d : Nat) (i : SlotNo) (s : State) : (closeDayOf y d i s).portA = s.portA := (congrArg State.portA (closeDayOf_frame y d i s) :)
@[simp] theorem closeDayOf_portB (y d : Nat) (i : SlotNo) (s : State) : (closeDayOf y d i s).portB = s.portB := (congrArg State.portB (closeDayOf_frame y d i s) :)

/-- The day closes of all accounts. -/
theorem closeDays_frame (y d : Nat) (s : State) :
    forEach 128 (closeDayOf y d) s =
      { s with accounts := (forEach 128 (closeDayOf y d) s).accounts, events := (forEach 128 (closeDayOf y d) s).events } :=
  forEach_frame _ (closeDayOf_frame y d) s

/-! ## closeDay -/

theorem closeDay_frame (y d : Nat) (s : State) :
    closeDay y d s = { s with accounts := (closeDay y d s).accounts, events := (closeDay y d s).events } := by
  have h := closeDays_frame y d s
  unfold closeDay
  generalize forEach 128 (closeDayOf y d) s = t at *
  rw [h]; rfl

@[simp] theorem closeDay_part (y d : Nat) (s : State) : (closeDay y d s).part = s.part := (congrArg State.part (closeDay_frame y d s) :)
@[simp] theorem closeDay_clock (y d : Nat) (s : State) : (closeDay y d s).clock = s.clock := (congrArg State.clock (closeDay_frame y d s) :)
@[simp] theorem closeDay_inputs (y d : Nat) (s : State) : (closeDay y d s).inputs = s.inputs := (congrArg State.inputs (closeDay_frame y d s) :)
@[simp] theorem closeDay_slots (y d : Nat) (s : State) : (closeDay y d s).slots = s.slots := (congrArg State.slots (closeDay_frame y d s) :)
@[simp] theorem closeDay_queue (y d : Nat) (s : State) : (closeDay y d s).queue = s.queue := (congrArg State.queue (closeDay_frame y d s) :)
@[simp] theorem closeDay_channels (y d : Nat) (s : State) : (closeDay y d s).channels = s.channels := (congrArg State.channels (closeDay_frame y d s) :)
@[simp] theorem closeDay_allowances (y d : Nat) (s : State) : (closeDay y d s).allowances = s.allowances := (congrArg State.allowances (closeDay_frame y d s) :)
@[simp] theorem closeDay_episodes (y d : Nat) (s : State) : (closeDay y d s).episodes = s.episodes := (congrArg State.episodes (closeDay_frame y d s) :)
@[simp] theorem closeDay_episodeCounter (y d : Nat) (s : State) : (closeDay y d s).episodeCounter = s.episodeCounter := (congrArg State.episodeCounter (closeDay_frame y d s) :)
@[simp] theorem closeDay_portA (y d : Nat) (s : State) : (closeDay y d s).portA = s.portA := (congrArg State.portA (closeDay_frame y d s) :)
@[simp] theorem closeDay_portB (y d : Nat) (s : State) : (closeDay y d s).portB = s.portB := (congrArg State.portB (closeDay_frame y d s) :)

@[simp] theorem moveYear_part (s : State) : (moveYear s).part = s.part := rfl
@[simp] theorem moveYear_clock (s : State) : (moveYear s).clock = s.clock := rfl
@[simp] theorem moveYear_inputs (s : State) : (moveYear s).inputs = s.inputs := rfl
@[simp] theorem moveYear_slots (s : State) : (moveYear s).slots = s.slots := rfl
@[simp] theorem moveYear_queue (s : State) : (moveYear s).queue = s.queue := rfl
@[simp] theorem moveYear_accounts (s : State) : (moveYear s).accounts = s.accounts := rfl
@[simp] theorem moveYear_channels (s : State) : (moveYear s).channels = s.channels := rfl
@[simp] theorem moveYear_episodes (s : State) : (moveYear s).episodes = s.episodes := rfl
@[simp] theorem moveYear_episodeCounter (s : State) : (moveYear s).episodeCounter = s.episodeCounter := rfl
@[simp] theorem moveYear_portA (s : State) : (moveYear s).portA = s.portA := rfl
@[simp] theorem moveYear_portB (s : State) : (moveYear s).portB = s.portB := rfl

/-! ## closeYearOf -/

theorem closeYearOf_frame (y : Nat) (i : SlotNo) (s : State) :
    closeYearOf y i s = { s with accounts := (closeYearOf y i s).accounts, events := (closeYearOf y i s).events } := by
  unfold closeYearOf; dsimp only; (repeat' split) <;> rfl

@[simp] theorem closeYearOf_part (y : Nat) (i : SlotNo) (s : State) : (closeYearOf y i s).part = s.part := (congrArg State.part (closeYearOf_frame y i s) :)
@[simp] theorem closeYearOf_clock (y : Nat) (i : SlotNo) (s : State) : (closeYearOf y i s).clock = s.clock := (congrArg State.clock (closeYearOf_frame y i s) :)
@[simp] theorem closeYearOf_inputs (y : Nat) (i : SlotNo) (s : State) : (closeYearOf y i s).inputs = s.inputs := (congrArg State.inputs (closeYearOf_frame y i s) :)
@[simp] theorem closeYearOf_slots (y : Nat) (i : SlotNo) (s : State) : (closeYearOf y i s).slots = s.slots := (congrArg State.slots (closeYearOf_frame y i s) :)
@[simp] theorem closeYearOf_queue (y : Nat) (i : SlotNo) (s : State) : (closeYearOf y i s).queue = s.queue := (congrArg State.queue (closeYearOf_frame y i s) :)
@[simp] theorem closeYearOf_channels (y : Nat) (i : SlotNo) (s : State) : (closeYearOf y i s).channels = s.channels := (congrArg State.channels (closeYearOf_frame y i s) :)
@[simp] theorem closeYearOf_allowances (y : Nat) (i : SlotNo) (s : State) : (closeYearOf y i s).allowances = s.allowances := (congrArg State.allowances (closeYearOf_frame y i s) :)
@[simp] theorem closeYearOf_episodes (y : Nat) (i : SlotNo) (s : State) : (closeYearOf y i s).episodes = s.episodes := (congrArg State.episodes (closeYearOf_frame y i s) :)
@[simp] theorem closeYearOf_episodeCounter (y : Nat) (i : SlotNo) (s : State) : (closeYearOf y i s).episodeCounter = s.episodeCounter := (congrArg State.episodeCounter (closeYearOf_frame y i s) :)
@[simp] theorem closeYearOf_portA (y : Nat) (i : SlotNo) (s : State) : (closeYearOf y i s).portA = s.portA := (congrArg State.portA (closeYearOf_frame y i s) :)
@[simp] theorem closeYearOf_portB (y : Nat) (i : SlotNo) (s : State) : (closeYearOf y i s).portB = s.portB := (congrArg State.portB (closeYearOf_frame y i s) :)

/-- The year closes of all accounts. -/
theorem closeYears_frame (y : Nat) (s : State) :
    forEach 128 (closeYearOf y) s =
      { s with accounts := (forEach 128 (closeYearOf y) s).accounts, events := (forEach 128 (closeYearOf y) s).events } :=
  forEach_frame _ (closeYearOf_frame y) s

/-! ## closeYear -/

theorem closeYear_frame (y : Nat) (s : State) :
    closeYear y s = { s with accounts := (closeYear y s).accounts, episodes := (closeYear y s).episodes, allowances := (closeYear y s).allowances, events := (closeYear y s).events } := by
  unfold closeYear; dsimp only
  have h := closeYears_frame y (endEpisodes Subject.isExceedance ⟨y, daysInYear y, 47⟩ s)
  generalize forEach 128 (closeYearOf y) _ = t at *
  rw [h, endEpisodes_frame]; rfl

@[simp] theorem closeYear_part (y : Nat) (s : State) : (closeYear y s).part = s.part := (congrArg State.part (closeYear_frame y s) :)
@[simp] theorem closeYear_clock (y : Nat) (s : State) : (closeYear y s).clock = s.clock := (congrArg State.clock (closeYear_frame y s) :)
@[simp] theorem closeYear_inputs (y : Nat) (s : State) : (closeYear y s).inputs = s.inputs := (congrArg State.inputs (closeYear_frame y s) :)
@[simp] theorem closeYear_slots (y : Nat) (s : State) : (closeYear y s).slots = s.slots := (congrArg State.slots (closeYear_frame y s) :)
@[simp] theorem closeYear_queue (y : Nat) (s : State) : (closeYear y s).queue = s.queue := (congrArg State.queue (closeYear_frame y s) :)
@[simp] theorem closeYear_channels (y : Nat) (s : State) : (closeYear y s).channels = s.channels := (congrArg State.channels (closeYear_frame y s) :)
@[simp] theorem closeYear_episodeCounter (y : Nat) (s : State) : (closeYear y s).episodeCounter = s.episodeCounter := (congrArg State.episodeCounter (closeYear_frame y s) :)
@[simp] theorem closeYear_portA (y : Nat) (s : State) : (closeYear y s).portA = s.portA := (congrArg State.portA (closeYear_frame y s) :)
@[simp] theorem closeYear_portB (y : Nat) (s : State) : (closeYear y s).portB = s.portB := (congrArg State.portB (closeYear_frame y s) :)

/-! ## chargeGap -/

theorem chargeGap_frame (i : SlotNo) (s : State) :
    chargeGap i s = { s with accounts := (chargeGap i s).accounts } := by
  unfold chargeGap; split <;> rfl

@[simp] theorem chargeGap_part (i : SlotNo) (s : State) : (chargeGap i s).part = s.part := (congrArg State.part (chargeGap_frame i s) :)
@[simp] theorem chargeGap_clock (i : SlotNo) (s : State) : (chargeGap i s).clock = s.clock := (congrArg State.clock (chargeGap_frame i s) :)
@[simp] theorem chargeGap_inputs (i : SlotNo) (s : State) : (chargeGap i s).inputs = s.inputs := (congrArg State.inputs (chargeGap_frame i s) :)
@[simp] theorem chargeGap_slots (i : SlotNo) (s : State) : (chargeGap i s).slots = s.slots := (congrArg State.slots (chargeGap_frame i s) :)
@[simp] theorem chargeGap_queue (i : SlotNo) (s : State) : (chargeGap i s).queue = s.queue := (congrArg State.queue (chargeGap_frame i s) :)
@[simp] theorem chargeGap_channels (i : SlotNo) (s : State) : (chargeGap i s).channels = s.channels := (congrArg State.channels (chargeGap_frame i s) :)
@[simp] theorem chargeGap_allowances (i : SlotNo) (s : State) : (chargeGap i s).allowances = s.allowances := (congrArg State.allowances (chargeGap_frame i s) :)
@[simp] theorem chargeGap_episodes (i : SlotNo) (s : State) : (chargeGap i s).episodes = s.episodes := (congrArg State.episodes (chargeGap_frame i s) :)
@[simp] theorem chargeGap_episodeCounter (i : SlotNo) (s : State) : (chargeGap i s).episodeCounter = s.episodeCounter := (congrArg State.episodeCounter (chargeGap_frame i s) :)
@[simp] theorem chargeGap_portA (i : SlotNo) (s : State) : (chargeGap i s).portA = s.portA := (congrArg State.portA (chargeGap_frame i s) :)
@[simp] theorem chargeGap_portB (i : SlotNo) (s : State) : (chargeGap i s).portB = s.portB := (congrArg State.portB (chargeGap_frame i s) :)

/-- The charges of one covered half-hour. -/
theorem chargeGaps_frame (l : List SlotNo) (s : State) :
    l.foldl (fun u slot => chargeGap slot u) s =
      { s with accounts := (l.foldl (fun u slot => chargeGap slot u) s).accounts } :=
  foldl_lens _ (fun t : State => t.accounts) (fun t a => { t with accounts := a }) (fun _ _ _ => rfl) (fun _ => rfl)
    (fun t i => chargeGap_frame i t) l s

/-! ## walkHalfHour -/

theorem walkHalfHour_frame (l : List SlotNo) (x : HalfHourStamp) (s : State) :
    walkHalfHour l x s = { s with accounts := (walkHalfHour l x s).accounts, episodes := (walkHalfHour l x s).episodes, allowances := (walkHalfHour l x s).allowances, events := (walkHalfHour l x s).events } := by
  unfold walkHalfHour; dsimp only
  have h := chargeGaps_frame l s
  generalize l.foldl (fun u slot => chargeGap slot u) s = t at *
  rw [h]; split <;> split
  · rw [closeYear_frame, closeDay_frame]
  · rw [closeYear_frame]
  · rw [closeDay_frame]
  · rfl

@[simp] theorem walkHalfHour_part (l : List SlotNo) (x : HalfHourStamp) (s : State) : (walkHalfHour l x s).part = s.part := (congrArg State.part (walkHalfHour_frame l x s) :)
@[simp] theorem walkHalfHour_clock (l : List SlotNo) (x : HalfHourStamp) (s : State) : (walkHalfHour l x s).clock = s.clock := (congrArg State.clock (walkHalfHour_frame l x s) :)
@[simp] theorem walkHalfHour_inputs (l : List SlotNo) (x : HalfHourStamp) (s : State) : (walkHalfHour l x s).inputs = s.inputs := (congrArg State.inputs (walkHalfHour_frame l x s) :)
@[simp] theorem walkHalfHour_slots (l : List SlotNo) (x : HalfHourStamp) (s : State) : (walkHalfHour l x s).slots = s.slots := (congrArg State.slots (walkHalfHour_frame l x s) :)
@[simp] theorem walkHalfHour_queue (l : List SlotNo) (x : HalfHourStamp) (s : State) : (walkHalfHour l x s).queue = s.queue := (congrArg State.queue (walkHalfHour_frame l x s) :)
@[simp] theorem walkHalfHour_channels (l : List SlotNo) (x : HalfHourStamp) (s : State) : (walkHalfHour l x s).channels = s.channels := (congrArg State.channels (walkHalfHour_frame l x s) :)
@[simp] theorem walkHalfHour_episodeCounter (l : List SlotNo) (x : HalfHourStamp) (s : State) : (walkHalfHour l x s).episodeCounter = s.episodeCounter := (congrArg State.episodeCounter (walkHalfHour_frame l x s) :)
@[simp] theorem walkHalfHour_portA (l : List SlotNo) (x : HalfHourStamp) (s : State) : (walkHalfHour l x s).portA = s.portA := (congrArg State.portA (walkHalfHour_frame l x s) :)
@[simp] theorem walkHalfHour_portB (l : List SlotNo) (x : HalfHourStamp) (s : State) : (walkHalfHour l x s).portB = s.portB := (congrArg State.portB (walkHalfHour_frame l x s) :)

/-! ## walkGap -/

theorem walkGap_frame (l : List SlotNo) (n : Nat) (x : HalfHourStamp) (s : State) :
    walkGap l n x s = { s with accounts := (walkGap l n x s).accounts, episodes := (walkGap l n x s).episodes, allowances := (walkGap l n x s).allowances, events := (walkGap l n x s).events } := by
  induction n generalizing x s with
  | zero => rfl
  | succ n ih => rw [walkGap, ih, walkHalfHour_frame]

@[simp] theorem walkGap_part (l : List SlotNo) (n : Nat) (x : HalfHourStamp) (s : State) : (walkGap l n x s).part = s.part := (congrArg State.part (walkGap_frame l n x s) :)
@[simp] theorem walkGap_clock (l : List SlotNo) (n : Nat) (x : HalfHourStamp) (s : State) : (walkGap l n x s).clock = s.clock := (congrArg State.clock (walkGap_frame l n x s) :)
@[simp] theorem walkGap_inputs (l : List SlotNo) (n : Nat) (x : HalfHourStamp) (s : State) : (walkGap l n x s).inputs = s.inputs := (congrArg State.inputs (walkGap_frame l n x s) :)
@[simp] theorem walkGap_slots (l : List SlotNo) (n : Nat) (x : HalfHourStamp) (s : State) : (walkGap l n x s).slots = s.slots := (congrArg State.slots (walkGap_frame l n x s) :)
@[simp] theorem walkGap_queue (l : List SlotNo) (n : Nat) (x : HalfHourStamp) (s : State) : (walkGap l n x s).queue = s.queue := (congrArg State.queue (walkGap_frame l n x s) :)
@[simp] theorem walkGap_channels (l : List SlotNo) (n : Nat) (x : HalfHourStamp) (s : State) : (walkGap l n x s).channels = s.channels := (congrArg State.channels (walkGap_frame l n x s) :)
@[simp] theorem walkGap_episodeCounter (l : List SlotNo) (n : Nat) (x : HalfHourStamp) (s : State) : (walkGap l n x s).episodeCounter = s.episodeCounter := (congrArg State.episodeCounter (walkGap_frame l n x s) :)
@[simp] theorem walkGap_portA (l : List SlotNo) (n : Nat) (x : HalfHourStamp) (s : State) : (walkGap l n x s).portA = s.portA := (congrArg State.portA (walkGap_frame l n x s) :)
@[simp] theorem walkGap_portB (l : List SlotNo) (n : Nat) (x : HalfHourStamp) (s : State) : (walkGap l n x s).portB = s.portB := (congrArg State.portB (walkGap_frame l n x s) :)

/-! ## storeAllowances -/

theorem storeAllowances_frame (i : StackNo) (a b : Nat) (s : State) :
    storeAllowances i a b s = { s with allowances := (storeAllowances i a b s).allowances, events := (storeAllowances i a b s).events } := by
  unfold storeAllowances; dsimp only; split
  · rw [evaluateStop_frame]; rfl
  · rfl

@[simp] theorem storeAllowances_part (i : StackNo) (a b : Nat) (s : State) : (storeAllowances i a b s).part = s.part := (congrArg State.part (storeAllowances_frame i a b s) :)
@[simp] theorem storeAllowances_clock (i : StackNo) (a b : Nat) (s : State) : (storeAllowances i a b s).clock = s.clock := (congrArg State.clock (storeAllowances_frame i a b s) :)
@[simp] theorem storeAllowances_inputs (i : StackNo) (a b : Nat) (s : State) : (storeAllowances i a b s).inputs = s.inputs := (congrArg State.inputs (storeAllowances_frame i a b s) :)
@[simp] theorem storeAllowances_slots (i : StackNo) (a b : Nat) (s : State) : (storeAllowances i a b s).slots = s.slots := (congrArg State.slots (storeAllowances_frame i a b s) :)
@[simp] theorem storeAllowances_queue (i : StackNo) (a b : Nat) (s : State) : (storeAllowances i a b s).queue = s.queue := (congrArg State.queue (storeAllowances_frame i a b s) :)
@[simp] theorem storeAllowances_accounts (i : StackNo) (a b : Nat) (s : State) : (storeAllowances i a b s).accounts = s.accounts := (congrArg State.accounts (storeAllowances_frame i a b s) :)
@[simp] theorem storeAllowances_channels (i : StackNo) (a b : Nat) (s : State) : (storeAllowances i a b s).channels = s.channels := (congrArg State.channels (storeAllowances_frame i a b s) :)
@[simp] theorem storeAllowances_episodes (i : StackNo) (a b : Nat) (s : State) : (storeAllowances i a b s).episodes = s.episodes := (congrArg State.episodes (storeAllowances_frame i a b s) :)
@[simp] theorem storeAllowances_episodeCounter (i : StackNo) (a b : Nat) (s : State) : (storeAllowances i a b s).episodeCounter = s.episodeCounter := (congrArg State.episodeCounter (storeAllowances_frame i a b s) :)
@[simp] theorem storeAllowances_portA (i : StackNo) (a b : Nat) (s : State) : (storeAllowances i a b s).portA = s.portA := (congrArg State.portA (storeAllowances_frame i a b s) :)
@[simp] theorem storeAllowances_portB (i : StackNo) (a b : Nat) (s : State) : (storeAllowances i a b s).portB = s.portB := (congrArg State.portB (storeAllowances_frame i a b s) :)

@[simp] theorem removeEpisodesOf_part (i : SlotNo) (s : State) : (removeEpisodesOf i s).part = s.part := rfl
@[simp] theorem removeEpisodesOf_clock (i : SlotNo) (s : State) : (removeEpisodesOf i s).clock = s.clock := rfl
@[simp] theorem removeEpisodesOf_inputs (i : SlotNo) (s : State) : (removeEpisodesOf i s).inputs = s.inputs := rfl
@[simp] theorem removeEpisodesOf_slots (i : SlotNo) (s : State) : (removeEpisodesOf i s).slots = s.slots := rfl
@[simp] theorem removeEpisodesOf_queue (i : SlotNo) (s : State) : (removeEpisodesOf i s).queue = s.queue := rfl
@[simp] theorem removeEpisodesOf_accounts (i : SlotNo) (s : State) : (removeEpisodesOf i s).accounts = s.accounts := rfl
@[simp] theorem removeEpisodesOf_channels (i : SlotNo) (s : State) : (removeEpisodesOf i s).channels = s.channels := rfl
@[simp] theorem removeEpisodesOf_allowances (i : SlotNo) (s : State) : (removeEpisodesOf i s).allowances = s.allowances := rfl
@[simp] theorem removeEpisodesOf_episodeCounter (i : SlotNo) (s : State) : (removeEpisodesOf i s).episodeCounter = s.episodeCounter := rfl
@[simp] theorem removeEpisodesOf_portA (i : SlotNo) (s : State) : (removeEpisodesOf i s).portA = s.portA := rfl
@[simp] theorem removeEpisodesOf_portB (i : SlotNo) (s : State) : (removeEpisodesOf i s).portB = s.portB := rfl

/-! ## submit -/

theorem submit_frame (p : Port) (s : State) :
    submit p s = { s with portA := (submit p s).portA, portB := (submit p s).portB, events := (submit p s).events, inFlight := (submit p s).inFlight, handOrder := (submit p s).handOrder, monitorHand := (submit p s).monitorHand, clockHand := (submit p s).clockHand } := by
  unfold submit; dsimp only; split
  · cases p <;> rfl
  · rename_i c _; cases p <;> cases c <;> rfl

@[simp] theorem submit_part (p : Port) (s : State) : (submit p s).part = s.part := (congrArg State.part (submit_frame p s) :)
@[simp] theorem submit_clock (p : Port) (s : State) : (submit p s).clock = s.clock := (congrArg State.clock (submit_frame p s) :)
@[simp] theorem submit_inputs (p : Port) (s : State) : (submit p s).inputs = s.inputs := (congrArg State.inputs (submit_frame p s) :)
@[simp] theorem submit_slots (p : Port) (s : State) : (submit p s).slots = s.slots := (congrArg State.slots (submit_frame p s) :)
@[simp] theorem submit_queue (p : Port) (s : State) : (submit p s).queue = s.queue := (congrArg State.queue (submit_frame p s) :)
@[simp] theorem submit_accounts (p : Port) (s : State) : (submit p s).accounts = s.accounts := (congrArg State.accounts (submit_frame p s) :)
@[simp] theorem submit_channels (p : Port) (s : State) : (submit p s).channels = s.channels := (congrArg State.channels (submit_frame p s) :)
@[simp] theorem submit_allowances (p : Port) (s : State) : (submit p s).allowances = s.allowances := (congrArg State.allowances (submit_frame p s) :)
@[simp] theorem submit_episodes (p : Port) (s : State) : (submit p s).episodes = s.episodes := (congrArg State.episodes (submit_frame p s) :)
@[simp] theorem submit_episodeCounter (p : Port) (s : State) : (submit p s).episodeCounter = s.episodeCounter := (congrArg State.episodeCounter (submit_frame p s) :)

/-! ## goWrite -/

theorem goWrite_frame (p : Port) (s : State) :
    goWrite p s = { s with portA := (goWrite p s).portA, portB := (goWrite p s).portB, events := (goWrite p s).events, inFlight := (goWrite p s).inFlight, handOrder := (goWrite p s).handOrder, monitorHand := (goWrite p s).monitorHand, clockHand := (goWrite p s).clockHand } := by
  unfold goWrite; split
  · rfl
  · split
    · cases p <;> rfl
    · rw [submit_frame]
    · rw [submit_frame]

@[simp] theorem goWrite_part (p : Port) (s : State) : (goWrite p s).part = s.part := (congrArg State.part (goWrite_frame p s) :)
@[simp] theorem goWrite_clock (p : Port) (s : State) : (goWrite p s).clock = s.clock := (congrArg State.clock (goWrite_frame p s) :)
@[simp] theorem goWrite_inputs (p : Port) (s : State) : (goWrite p s).inputs = s.inputs := (congrArg State.inputs (goWrite_frame p s) :)
@[simp] theorem goWrite_slots (p : Port) (s : State) : (goWrite p s).slots = s.slots := (congrArg State.slots (goWrite_frame p s) :)
@[simp] theorem goWrite_queue (p : Port) (s : State) : (goWrite p s).queue = s.queue := (congrArg State.queue (goWrite_frame p s) :)
@[simp] theorem goWrite_accounts (p : Port) (s : State) : (goWrite p s).accounts = s.accounts := (congrArg State.accounts (goWrite_frame p s) :)
@[simp] theorem goWrite_channels (p : Port) (s : State) : (goWrite p s).channels = s.channels := (congrArg State.channels (goWrite_frame p s) :)
@[simp] theorem goWrite_allowances (p : Port) (s : State) : (goWrite p s).allowances = s.allowances := (congrArg State.allowances (goWrite_frame p s) :)
@[simp] theorem goWrite_episodes (p : Port) (s : State) : (goWrite p s).episodes = s.episodes := (congrArg State.episodes (goWrite_frame p s) :)
@[simp] theorem goWrite_episodeCounter (p : Port) (s : State) : (goWrite p s).episodeCounter = s.episodeCounter := (congrArg State.episodeCounter (goWrite_frame p s) :)

/-! ## recordWrite -/

theorem recordWrite_frame (n : Nat) (v : Byte) (s : State) :
    recordWrite n v s = { s with slots := (recordWrite n v s).slots } := by
  unfold recordWrite; split
  · dsimp only; split <;> rfl
  · rfl

@[simp] theorem recordWrite_part (n : Nat) (v : Byte) (s : State) : (recordWrite n v s).part = s.part := (congrArg State.part (recordWrite_frame n v s) :)
@[simp] theorem recordWrite_clock (n : Nat) (v : Byte) (s : State) : (recordWrite n v s).clock = s.clock := (congrArg State.clock (recordWrite_frame n v s) :)
@[simp] theorem recordWrite_inputs (n : Nat) (v : Byte) (s : State) : (recordWrite n v s).inputs = s.inputs := (congrArg State.inputs (recordWrite_frame n v s) :)
@[simp] theorem recordWrite_queue (n : Nat) (v : Byte) (s : State) : (recordWrite n v s).queue = s.queue := (congrArg State.queue (recordWrite_frame n v s) :)
@[simp] theorem recordWrite_accounts (n : Nat) (v : Byte) (s : State) : (recordWrite n v s).accounts = s.accounts := (congrArg State.accounts (recordWrite_frame n v s) :)
@[simp] theorem recordWrite_channels (n : Nat) (v : Byte) (s : State) : (recordWrite n v s).channels = s.channels := (congrArg State.channels (recordWrite_frame n v s) :)
@[simp] theorem recordWrite_allowances (n : Nat) (v : Byte) (s : State) : (recordWrite n v s).allowances = s.allowances := (congrArg State.allowances (recordWrite_frame n v s) :)
@[simp] theorem recordWrite_episodes (n : Nat) (v : Byte) (s : State) : (recordWrite n v s).episodes = s.episodes := (congrArg State.episodes (recordWrite_frame n v s) :)
@[simp] theorem recordWrite_episodeCounter (n : Nat) (v : Byte) (s : State) : (recordWrite n v s).episodeCounter = s.episodeCounter := (congrArg State.episodeCounter (recordWrite_frame n v s) :)
@[simp] theorem recordWrite_portA (n : Nat) (v : Byte) (s : State) : (recordWrite n v s).portA = s.portA := (congrArg State.portA (recordWrite_frame n v s) :)
@[simp] theorem recordWrite_portB (n : Nat) (v : Byte) (s : State) : (recordWrite n v s).portB = s.portB := (congrArg State.portB (recordWrite_frame n v s) :)

/-! ## handOver -/

theorem handOver_frame (s : State) :
    handOver s = { s with slots := (handOver s).slots, events := (handOver s).events } := by
  unfold handOver; split
  · dsimp only; split <;> rfl
  · rfl

@[simp] theorem handOver_part (s : State) : (handOver s).part = s.part := (congrArg State.part (handOver_frame s) :)
@[simp] theorem handOver_clock (s : State) : (handOver s).clock = s.clock := (congrArg State.clock (handOver_frame s) :)
@[simp] theorem handOver_inputs (s : State) : (handOver s).inputs = s.inputs := (congrArg State.inputs (handOver_frame s) :)
@[simp] theorem handOver_queue (s : State) : (handOver s).queue = s.queue := (congrArg State.queue (handOver_frame s) :)
@[simp] theorem handOver_accounts (s : State) : (handOver s).accounts = s.accounts := (congrArg State.accounts (handOver_frame s) :)
@[simp] theorem handOver_channels (s : State) : (handOver s).channels = s.channels := (congrArg State.channels (handOver_frame s) :)
@[simp] theorem handOver_allowances (s : State) : (handOver s).allowances = s.allowances := (congrArg State.allowances (handOver_frame s) :)
@[simp] theorem handOver_episodes (s : State) : (handOver s).episodes = s.episodes := (congrArg State.episodes (handOver_frame s) :)
@[simp] theorem handOver_episodeCounter (s : State) : (handOver s).episodeCounter = s.episodeCounter := (congrArg State.episodeCounter (handOver_frame s) :)
@[simp] theorem handOver_portA (s : State) : (handOver s).portA = s.portA := (congrArg State.portA (handOver_frame s) :)
@[simp] theorem handOver_portB (s : State) : (handOver s).portB = s.portB := (congrArg State.portB (handOver_frame s) :)

/-! ## blockWrite -/

theorem blockWrite_frame (p : Port) (n : Nat) (v : Byte) (s : State) :
    blockWrite p n v s = { s with portA := (blockWrite p n v s).portA, portB := (blockWrite p n v s).portB } := by
  cases p <;> rfl

@[simp] theorem blockWrite_part (p : Port) (n : Nat) (v : Byte) (s : State) : (blockWrite p n v s).part = s.part := (congrArg State.part (blockWrite_frame p n v s) :)
@[simp] theorem blockWrite_clock (p : Port) (n : Nat) (v : Byte) (s : State) : (blockWrite p n v s).clock = s.clock := (congrArg State.clock (blockWrite_frame p n v s) :)
@[simp] theorem blockWrite_inputs (p : Port) (n : Nat) (v : Byte) (s : State) : (blockWrite p n v s).inputs = s.inputs := (congrArg State.inputs (blockWrite_frame p n v s) :)
@[simp] theorem blockWrite_slots (p : Port) (n : Nat) (v : Byte) (s : State) : (blockWrite p n v s).slots = s.slots := (congrArg State.slots (blockWrite_frame p n v s) :)
@[simp] theorem blockWrite_queue (p : Port) (n : Nat) (v : Byte) (s : State) : (blockWrite p n v s).queue = s.queue := (congrArg State.queue (blockWrite_frame p n v s) :)
@[simp] theorem blockWrite_accounts (p : Port) (n : Nat) (v : Byte) (s : State) : (blockWrite p n v s).accounts = s.accounts := (congrArg State.accounts (blockWrite_frame p n v s) :)
@[simp] theorem blockWrite_channels (p : Port) (n : Nat) (v : Byte) (s : State) : (blockWrite p n v s).channels = s.channels := (congrArg State.channels (blockWrite_frame p n v s) :)
@[simp] theorem blockWrite_allowances (p : Port) (n : Nat) (v : Byte) (s : State) : (blockWrite p n v s).allowances = s.allowances := (congrArg State.allowances (blockWrite_frame p n v s) :)
@[simp] theorem blockWrite_episodes (p : Port) (n : Nat) (v : Byte) (s : State) : (blockWrite p n v s).episodes = s.episodes := (congrArg State.episodes (blockWrite_frame p n v s) :)
@[simp] theorem blockWrite_episodeCounter (p : Port) (n : Nat) (v : Byte) (s : State) : (blockWrite p n v s).episodeCounter = s.episodeCounter := (congrArg State.episodeCounter (blockWrite_frame p n v s) :)

/-! ## holdPointer -/

theorem holdPointer_frame (p : Port) (v : Byte) (s : State) :
    holdPointer p v s = { s with portA := (holdPointer p v s).portA, portB := (holdPointer p v s).portB } := by
  cases p <;> rfl

@[simp] theorem holdPointer_part (p : Port) (v : Byte) (s : State) : (holdPointer p v s).part = s.part := (congrArg State.part (holdPointer_frame p v s) :)
@[simp] theorem holdPointer_clock (p : Port) (v : Byte) (s : State) : (holdPointer p v s).clock = s.clock := (congrArg State.clock (holdPointer_frame p v s) :)
@[simp] theorem holdPointer_inputs (p : Port) (v : Byte) (s : State) : (holdPointer p v s).inputs = s.inputs := (congrArg State.inputs (holdPointer_frame p v s) :)
@[simp] theorem holdPointer_slots (p : Port) (v : Byte) (s : State) : (holdPointer p v s).slots = s.slots := (congrArg State.slots (holdPointer_frame p v s) :)
@[simp] theorem holdPointer_queue (p : Port) (v : Byte) (s : State) : (holdPointer p v s).queue = s.queue := (congrArg State.queue (holdPointer_frame p v s) :)
@[simp] theorem holdPointer_accounts (p : Port) (v : Byte) (s : State) : (holdPointer p v s).accounts = s.accounts := (congrArg State.accounts (holdPointer_frame p v s) :)
@[simp] theorem holdPointer_channels (p : Port) (v : Byte) (s : State) : (holdPointer p v s).channels = s.channels := (congrArg State.channels (holdPointer_frame p v s) :)
@[simp] theorem holdPointer_allowances (p : Port) (v : Byte) (s : State) : (holdPointer p v s).allowances = s.allowances := (congrArg State.allowances (holdPointer_frame p v s) :)
@[simp] theorem holdPointer_episodes (p : Port) (v : Byte) (s : State) : (holdPointer p v s).episodes = s.episodes := (congrArg State.episodes (holdPointer_frame p v s) :)
@[simp] theorem holdPointer_episodeCounter (p : Port) (v : Byte) (s : State) : (holdPointer p v s).episodeCounter = s.episodeCounter := (congrArg State.episodeCounter (holdPointer_frame p v s) :)

/-! ## pointerWrite -/

theorem pointerWrite_frame (p : Port) (v : Byte) (s : State) :
    pointerWrite p v s = { s with portA := (pointerWrite p v s).portA, portB := (pointerWrite p v s).portB } := by
  cases p <;> rfl

@[simp] theorem pointerWrite_part (p : Port) (v : Byte) (s : State) : (pointerWrite p v s).part = s.part := (congrArg State.part (pointerWrite_frame p v s) :)
@[simp] theorem pointerWrite_clock (p : Port) (v : Byte) (s : State) : (pointerWrite p v s).clock = s.clock := (congrArg State.clock (pointerWrite_frame p v s) :)
@[simp] theorem pointerWrite_inputs (p : Port) (v : Byte) (s : State) : (pointerWrite p v s).inputs = s.inputs := (congrArg State.inputs (pointerWrite_frame p v s) :)
@[simp] theorem pointerWrite_slots (p : Port) (v : Byte) (s : State) : (pointerWrite p v s).slots = s.slots := (congrArg State.slots (pointerWrite_frame p v s) :)
@[simp] theorem pointerWrite_queue (p : Port) (v : Byte) (s : State) : (pointerWrite p v s).queue = s.queue := (congrArg State.queue (pointerWrite_frame p v s) :)
@[simp] theorem pointerWrite_accounts (p : Port) (v : Byte) (s : State) : (pointerWrite p v s).accounts = s.accounts := (congrArg State.accounts (pointerWrite_frame p v s) :)
@[simp] theorem pointerWrite_channels (p : Port) (v : Byte) (s : State) : (pointerWrite p v s).channels = s.channels := (congrArg State.channels (pointerWrite_frame p v s) :)
@[simp] theorem pointerWrite_allowances (p : Port) (v : Byte) (s : State) : (pointerWrite p v s).allowances = s.allowances := (congrArg State.allowances (pointerWrite_frame p v s) :)
@[simp] theorem pointerWrite_episodes (p : Port) (v : Byte) (s : State) : (pointerWrite p v s).episodes = s.episodes := (congrArg State.episodes (pointerWrite_frame p v s) :)
@[simp] theorem pointerWrite_episodeCounter (p : Port) (v : Byte) (s : State) : (pointerWrite p v s).episodeCounter = s.episodeCounter := (congrArg State.episodeCounter (pointerWrite_frame p v s) :)

/-! ## postingWrite -/

theorem postingWrite_frame (n : Nat) (v : Byte) (s : State) :
    postingWrite n v s = { s with portA := (postingWrite n v s).portA, slots := (postingWrite n v s).slots, events := (postingWrite n v s).events } := by
  unfold postingWrite; (repeat' split) <;> first | rfl | rw [recordWrite_frame] | rw [handOver_frame]

@[simp] theorem postingWrite_part (n : Nat) (v : Byte) (s : State) : (postingWrite n v s).part = s.part := (congrArg State.part (postingWrite_frame n v s) :)
@[simp] theorem postingWrite_clock (n : Nat) (v : Byte) (s : State) : (postingWrite n v s).clock = s.clock := (congrArg State.clock (postingWrite_frame n v s) :)
@[simp] theorem postingWrite_inputs (n : Nat) (v : Byte) (s : State) : (postingWrite n v s).inputs = s.inputs := (congrArg State.inputs (postingWrite_frame n v s) :)
@[simp] theorem postingWrite_queue (n : Nat) (v : Byte) (s : State) : (postingWrite n v s).queue = s.queue := (congrArg State.queue (postingWrite_frame n v s) :)
@[simp] theorem postingWrite_accounts (n : Nat) (v : Byte) (s : State) : (postingWrite n v s).accounts = s.accounts := (congrArg State.accounts (postingWrite_frame n v s) :)
@[simp] theorem postingWrite_channels (n : Nat) (v : Byte) (s : State) : (postingWrite n v s).channels = s.channels := (congrArg State.channels (postingWrite_frame n v s) :)
@[simp] theorem postingWrite_allowances (n : Nat) (v : Byte) (s : State) : (postingWrite n v s).allowances = s.allowances := (congrArg State.allowances (postingWrite_frame n v s) :)
@[simp] theorem postingWrite_episodes (n : Nat) (v : Byte) (s : State) : (postingWrite n v s).episodes = s.episodes := (congrArg State.episodes (postingWrite_frame n v s) :)
@[simp] theorem postingWrite_episodeCounter (n : Nat) (v : Byte) (s : State) : (postingWrite n v s).episodeCounter = s.episodeCounter := (congrArg State.episodeCounter (postingWrite_frame n v s) :)
@[simp] theorem postingWrite_portB (n : Nat) (v : Byte) (s : State) : (postingWrite n v s).portB = s.portB := (congrArg State.portB (postingWrite_frame n v s) :)

/-! ## windowWrite -/

theorem windowWrite_frame (p : Port) (a : Loc) (v : Byte) (s : State) :
    windowWrite p a v s = { s with portA := (windowWrite p a v s).portA, portB := (windowWrite p a v s).portB, slots := (windowWrite p a v s).slots, events := (windowWrite p a v s).events, inFlight := (windowWrite p a v s).inFlight, handOrder := (windowWrite p a v s).handOrder, monitorHand := (windowWrite p a v s).monitorHand, clockHand := (windowWrite p a v s).clockHand } := by
  unfold windowWrite; dsimp only; (repeat' split) <;>
    first | rfl | rw [blockWrite_frame] | rw [goWrite_frame] | rw [holdPointer_frame] | rw [pointerWrite_frame] | rw [postingWrite_frame]

@[simp] theorem windowWrite_part (p : Port) (a : Loc) (v : Byte) (s : State) : (windowWrite p a v s).part = s.part := (congrArg State.part (windowWrite_frame p a v s) :)
@[simp] theorem windowWrite_clock (p : Port) (a : Loc) (v : Byte) (s : State) : (windowWrite p a v s).clock = s.clock := (congrArg State.clock (windowWrite_frame p a v s) :)
@[simp] theorem windowWrite_inputs (p : Port) (a : Loc) (v : Byte) (s : State) : (windowWrite p a v s).inputs = s.inputs := (congrArg State.inputs (windowWrite_frame p a v s) :)
@[simp] theorem windowWrite_queue (p : Port) (a : Loc) (v : Byte) (s : State) : (windowWrite p a v s).queue = s.queue := (congrArg State.queue (windowWrite_frame p a v s) :)
@[simp] theorem windowWrite_accounts (p : Port) (a : Loc) (v : Byte) (s : State) : (windowWrite p a v s).accounts = s.accounts := (congrArg State.accounts (windowWrite_frame p a v s) :)
@[simp] theorem windowWrite_channels (p : Port) (a : Loc) (v : Byte) (s : State) : (windowWrite p a v s).channels = s.channels := (congrArg State.channels (windowWrite_frame p a v s) :)
@[simp] theorem windowWrite_allowances (p : Port) (a : Loc) (v : Byte) (s : State) : (windowWrite p a v s).allowances = s.allowances := (congrArg State.allowances (windowWrite_frame p a v s) :)
@[simp] theorem windowWrite_episodes (p : Port) (a : Loc) (v : Byte) (s : State) : (windowWrite p a v s).episodes = s.episodes := (congrArg State.episodes (windowWrite_frame p a v s) :)
@[simp] theorem windowWrite_episodeCounter (p : Port) (a : Loc) (v : Byte) (s : State) : (windowWrite p a v s).episodeCounter = s.episodeCounter := (congrArg State.episodeCounter (windowWrite_frame p a v s) :)

@[simp] theorem pointAt_part (f : Phase) (a : Loc) (s : State) : (pointAt f a s).part = s.part := rfl
@[simp] theorem pointAt_clock (f : Phase) (a : Loc) (s : State) : (pointAt f a s).clock = s.clock := rfl
@[simp] theorem pointAt_inputs (f : Phase) (a : Loc) (s : State) : (pointAt f a s).inputs = s.inputs := rfl
@[simp] theorem pointAt_slots (f : Phase) (a : Loc) (s : State) : (pointAt f a s).slots = s.slots := rfl
@[simp] theorem pointAt_queue (f : Phase) (a : Loc) (s : State) : (pointAt f a s).queue = s.queue := rfl
@[simp] theorem pointAt_accounts (f : Phase) (a : Loc) (s : State) : (pointAt f a s).accounts = s.accounts := rfl
@[simp] theorem pointAt_channels (f : Phase) (a : Loc) (s : State) : (pointAt f a s).channels = s.channels := rfl
@[simp] theorem pointAt_allowances (f : Phase) (a : Loc) (s : State) : (pointAt f a s).allowances = s.allowances := rfl
@[simp] theorem pointAt_episodes (f : Phase) (a : Loc) (s : State) : (pointAt f a s).episodes = s.episodes := rfl
@[simp] theorem pointAt_episodeCounter (f : Phase) (a : Loc) (s : State) : (pointAt f a s).episodeCounter = s.episodeCounter := rfl
@[simp] theorem pointAt_portA (f : Phase) (a : Loc) (s : State) : (pointAt f a s).portA = s.portA := rfl

/-! ## enqueueAnswer -/

theorem enqueueAnswer_frame (v : Byte) (s : State) :
    enqueueAnswer v s = { s with portB := (enqueueAnswer v s).portB } := by
  unfold enqueueAnswer; split <;> rfl

@[simp] theorem enqueueAnswer_part (v : Byte) (s : State) : (enqueueAnswer v s).part = s.part := (congrArg State.part (enqueueAnswer_frame v s) :)
@[simp] theorem enqueueAnswer_clock (v : Byte) (s : State) : (enqueueAnswer v s).clock = s.clock := (congrArg State.clock (enqueueAnswer_frame v s) :)
@[simp] theorem enqueueAnswer_inputs (v : Byte) (s : State) : (enqueueAnswer v s).inputs = s.inputs := (congrArg State.inputs (enqueueAnswer_frame v s) :)
@[simp] theorem enqueueAnswer_slots (v : Byte) (s : State) : (enqueueAnswer v s).slots = s.slots := (congrArg State.slots (enqueueAnswer_frame v s) :)
@[simp] theorem enqueueAnswer_queue (v : Byte) (s : State) : (enqueueAnswer v s).queue = s.queue := (congrArg State.queue (enqueueAnswer_frame v s) :)
@[simp] theorem enqueueAnswer_accounts (v : Byte) (s : State) : (enqueueAnswer v s).accounts = s.accounts := (congrArg State.accounts (enqueueAnswer_frame v s) :)
@[simp] theorem enqueueAnswer_channels (v : Byte) (s : State) : (enqueueAnswer v s).channels = s.channels := (congrArg State.channels (enqueueAnswer_frame v s) :)
@[simp] theorem enqueueAnswer_allowances (v : Byte) (s : State) : (enqueueAnswer v s).allowances = s.allowances := (congrArg State.allowances (enqueueAnswer_frame v s) :)
@[simp] theorem enqueueAnswer_episodes (v : Byte) (s : State) : (enqueueAnswer v s).episodes = s.episodes := (congrArg State.episodes (enqueueAnswer_frame v s) :)
@[simp] theorem enqueueAnswer_episodeCounter (v : Byte) (s : State) : (enqueueAnswer v s).episodeCounter = s.episodeCounter := (congrArg State.episodeCounter (enqueueAnswer_frame v s) :)
@[simp] theorem enqueueAnswer_portA (v : Byte) (s : State) : (enqueueAnswer v s).portA = s.portA := (congrArg State.portA (enqueueAnswer_frame v s) :)

/-! ## writeValue -/

theorem writeValue_frame (v : Byte) (s : State) :
    writeValue v s = { s with portA := (writeValue v s).portA, portB := (writeValue v s).portB, slots := (writeValue v s).slots, events := (writeValue v s).events, inFlight := (writeValue v s).inFlight, handOrder := (writeValue v s).handOrder, monitorHand := (writeValue v s).monitorHand, clockHand := (writeValue v s).clockHand } := by
  unfold writeValue; rw [windowWrite_frame]; rfl

@[simp] theorem writeValue_part (v : Byte) (s : State) : (writeValue v s).part = s.part := (congrArg State.part (writeValue_frame v s) :)
@[simp] theorem writeValue_clock (v : Byte) (s : State) : (writeValue v s).clock = s.clock := (congrArg State.clock (writeValue_frame v s) :)
@[simp] theorem writeValue_inputs (v : Byte) (s : State) : (writeValue v s).inputs = s.inputs := (congrArg State.inputs (writeValue_frame v s) :)
@[simp] theorem writeValue_queue (v : Byte) (s : State) : (writeValue v s).queue = s.queue := (congrArg State.queue (writeValue_frame v s) :)
@[simp] theorem writeValue_accounts (v : Byte) (s : State) : (writeValue v s).accounts = s.accounts := (congrArg State.accounts (writeValue_frame v s) :)
@[simp] theorem writeValue_channels (v : Byte) (s : State) : (writeValue v s).channels = s.channels := (congrArg State.channels (writeValue_frame v s) :)
@[simp] theorem writeValue_allowances (v : Byte) (s : State) : (writeValue v s).allowances = s.allowances := (congrArg State.allowances (writeValue_frame v s) :)
@[simp] theorem writeValue_episodes (v : Byte) (s : State) : (writeValue v s).episodes = s.episodes := (congrArg State.episodes (writeValue_frame v s) :)
@[simp] theorem writeValue_episodeCounter (v : Byte) (s : State) : (writeValue v s).episodeCounter = s.episodeCounter := (congrArg State.episodeCounter (writeValue_frame v s) :)

/-! ## windowRead -/

theorem windowRead_frame (p : Port) (a : Loc) (s : State) :
    (windowRead p a s).2 = { s with portA := (windowRead p a s).2.portA, portB := (windowRead p a s).2.portB, events := (windowRead p a s).2.events } := by
  unfold windowRead captureRead viewRead; dsimp only; (repeat' split) <;> cases p <;> rfl

@[simp] theorem windowRead_part (p : Port) (a : Loc) (s : State) : (windowRead p a s).2.part = s.part := (congrArg State.part (windowRead_frame p a s) :)
@[simp] theorem windowRead_clock (p : Port) (a : Loc) (s : State) : (windowRead p a s).2.clock = s.clock := (congrArg State.clock (windowRead_frame p a s) :)
@[simp] theorem windowRead_inputs (p : Port) (a : Loc) (s : State) : (windowRead p a s).2.inputs = s.inputs := (congrArg State.inputs (windowRead_frame p a s) :)
@[simp] theorem windowRead_slots (p : Port) (a : Loc) (s : State) : (windowRead p a s).2.slots = s.slots := (congrArg State.slots (windowRead_frame p a s) :)
@[simp] theorem windowRead_queue (p : Port) (a : Loc) (s : State) : (windowRead p a s).2.queue = s.queue := (congrArg State.queue (windowRead_frame p a s) :)
@[simp] theorem windowRead_accounts (p : Port) (a : Loc) (s : State) : (windowRead p a s).2.accounts = s.accounts := (congrArg State.accounts (windowRead_frame p a s) :)
@[simp] theorem windowRead_channels (p : Port) (a : Loc) (s : State) : (windowRead p a s).2.channels = s.channels := (congrArg State.channels (windowRead_frame p a s) :)
@[simp] theorem windowRead_allowances (p : Port) (a : Loc) (s : State) : (windowRead p a s).2.allowances = s.allowances := (congrArg State.allowances (windowRead_frame p a s) :)
@[simp] theorem windowRead_episodes (p : Port) (a : Loc) (s : State) : (windowRead p a s).2.episodes = s.episodes := (congrArg State.episodes (windowRead_frame p a s) :)
@[simp] theorem windowRead_episodeCounter (p : Port) (a : Loc) (s : State) : (windowRead p a s).2.episodeCounter = s.episodeCounter := (congrArg State.episodeCounter (windowRead_frame p a s) :)

/-! ## readAt -/

theorem readAt_frame (a : Loc) (s : State) :
    readAt a s = { s with portA := (readAt a s).portA, portB := (readAt a s).portB, events := (readAt a s).events } := by
  unfold readAt; dsimp only; rw [enqueueAnswer_frame, windowRead_frame]; rfl

@[simp] theorem readAt_part (a : Loc) (s : State) : (readAt a s).part = s.part := (congrArg State.part (readAt_frame a s) :)
@[simp] theorem readAt_clock (a : Loc) (s : State) : (readAt a s).clock = s.clock := (congrArg State.clock (readAt_frame a s) :)
@[simp] theorem readAt_inputs (a : Loc) (s : State) : (readAt a s).inputs = s.inputs := (congrArg State.inputs (readAt_frame a s) :)
@[simp] theorem readAt_slots (a : Loc) (s : State) : (readAt a s).slots = s.slots := (congrArg State.slots (readAt_frame a s) :)
@[simp] theorem readAt_queue (a : Loc) (s : State) : (readAt a s).queue = s.queue := (congrArg State.queue (readAt_frame a s) :)
@[simp] theorem readAt_accounts (a : Loc) (s : State) : (readAt a s).accounts = s.accounts := (congrArg State.accounts (readAt_frame a s) :)
@[simp] theorem readAt_channels (a : Loc) (s : State) : (readAt a s).channels = s.channels := (congrArg State.channels (readAt_frame a s) :)
@[simp] theorem readAt_allowances (a : Loc) (s : State) : (readAt a s).allowances = s.allowances := (congrArg State.allowances (readAt_frame a s) :)
@[simp] theorem readAt_episodes (a : Loc) (s : State) : (readAt a s).episodes = s.episodes := (congrArg State.episodes (readAt_frame a s) :)
@[simp] theorem readAt_episodeCounter (a : Loc) (s : State) : (readAt a s).episodeCounter = s.episodeCounter := (congrArg State.episodeCounter (readAt_frame a s) :)

/-! ## receiveByte -/

theorem receiveByte_frame (v : Byte) (s : State) :
    receiveByte v s = { s with portA := (receiveByte v s).portA, portB := (receiveByte v s).portB, slots := (receiveByte v s).slots, events := (receiveByte v s).events, inFlight := (receiveByte v s).inFlight, handOrder := (receiveByte v s).handOrder, monitorHand := (receiveByte v s).monitorHand, clockHand := (receiveByte v s).clockHand } := by
  unfold receiveByte; (repeat' split) <;> first | rfl | rw [writeValue_frame] | rw [readAt_frame]

@[simp] theorem receiveByte_part (v : Byte) (s : State) : (receiveByte v s).part = s.part := (congrArg State.part (receiveByte_frame v s) :)
@[simp] theorem receiveByte_clock (v : Byte) (s : State) : (receiveByte v s).clock = s.clock := (congrArg State.clock (receiveByte_frame v s) :)
@[simp] theorem receiveByte_inputs (v : Byte) (s : State) : (receiveByte v s).inputs = s.inputs := (congrArg State.inputs (receiveByte_frame v s) :)
@[simp] theorem receiveByte_queue (v : Byte) (s : State) : (receiveByte v s).queue = s.queue := (congrArg State.queue (receiveByte_frame v s) :)
@[simp] theorem receiveByte_accounts (v : Byte) (s : State) : (receiveByte v s).accounts = s.accounts := (congrArg State.accounts (receiveByte_frame v s) :)
@[simp] theorem receiveByte_channels (v : Byte) (s : State) : (receiveByte v s).channels = s.channels := (congrArg State.channels (receiveByte_frame v s) :)
@[simp] theorem receiveByte_allowances (v : Byte) (s : State) : (receiveByte v s).allowances = s.allowances := (congrArg State.allowances (receiveByte_frame v s) :)
@[simp] theorem receiveByte_episodes (v : Byte) (s : State) : (receiveByte v s).episodes = s.episodes := (congrArg State.episodes (receiveByte_frame v s) :)
@[simp] theorem receiveByte_episodeCounter (v : Byte) (s : State) : (receiveByte v s).episodeCounter = s.episodeCounter := (congrArg State.episodeCounter (receiveByte_frame v s) :)

end Sys2Proof.Machine
end

