-- ==== Sys2Proof/Laws/Ops.lean ====
section
/-! SUPPORT. What the shared operations answer: indices and arguments, the run of a request, the common checks of the
requests, writes and reads of the window, collections under another clock, and the closes slot by slot. -/

namespace Sys2Proof.Machine

/-! ## Indices and tables -/

theorem index_eq {n : Nat} (i : Fin n) : index? n i.1 = some i := by simp [index?]

theorem index_none {n k : Nat} (h : n ≤ k) : index? n k = none := by simp [index?, h]

theorem index_of {n k : Nat} {i : Fin n} (h : k = i.1) : index? n k = some i := h ▸ index_eq i

theorem anyOf_false_iff {n : Nat} {f : Fin n → Bool} : anyOf f = false ↔ ∀ i, f i = false := by
  simp [anyOf]

theorem anyOf_true_iff {n : Nat} {f : Fin n → Bool} : anyOf f = true ↔ ∃ i, f i = true := by
  simp [anyOf]

theorem find_highest {n : Nat} {p : Fin n → Bool} {i : Fin n} (h : p i = true) (hm : ∀ j, i < j → p j = false) :
    highest p = some i := by
  unfold highest
  rw [List.find?_eq_some_iff_append]
  refine ⟨h, ?_⟩
  have hi : i ∈ (List.finRange n).reverse := by simp
  obtain ⟨a, b, hab⟩ := List.append_of_mem hi
  refine ⟨a, b, hab, ?_⟩
  intro x hx
  have hs : (List.finRange n).reverse.Pairwise (· > ·) := by
    rw [List.pairwise_reverse]; exact List.pairwise_lt_finRange n
  rw [hab] at hs
  have := (List.pairwise_append.mp hs).2.2 x hx i (by simp)
  simp [hm x this]

theorem highest_none {n : Nat} {p : Fin n → Bool} (h : ∀ i, p i = false) : highest p = none := by
  simp [highest, h]

theorem find_lowest {n : Nat} {p : Fin n → Bool} {i : Fin n} (h : p i = true) (hm : ∀ j, j < i → p j = false) :
    lowest p = some i := by
  unfold lowest
  rw [List.find?_eq_some_iff_append]
  refine ⟨h, ?_⟩
  obtain ⟨a, b, hab⟩ := List.append_of_mem (List.mem_finRange i)
  refine ⟨a, b, hab, ?_⟩
  intro x hx
  have hs := List.pairwise_lt_finRange n
  rw [hab] at hs
  have := (List.pairwise_append.mp hs).2.2 x hx i (by simp)
  simp [hm x this]

theorem lowest_none {n : Nat} {p : Fin n → Bool} (h : ∀ i, p i = false) : lowest p = none := by
  simp [lowest, h]

/-! ## Arguments -/

theorem natArg_some {r : Request} {n lo hi v : Nat} (h : r.arg n = some (v : Int)) (h1 : lo ≤ v) (h2 : v ≤ hi) :
    r.natArg n lo hi = some v := by
  simp [Request.natArg, Request.argIn, h, h1, h2]

theorem natArg_none {r : Request} {n lo hi : Nat} (h : ∀ v : Nat, lo ≤ v → v ≤ hi → r.arg n ≠ some (v : Int)) :
    r.natArg n lo hi = none := by
  unfold Request.natArg Request.argIn
  cases hv : r.arg n with
  | none => rfl
  | some v =>
    have : ¬ ((lo : Int) ≤ v ∧ v ≤ (hi : Int)) := fun ⟨h1, h2⟩ =>
      h v.toNat (by omega) (by omega) (by rw [hv]; congr 1; omega)
    simp [this]

theorem natArg_absent {r : Request} {n lo hi : Nat} (h : r.arg n = none) : r.natArg n lo hi = none := by
  simp [Request.natArg, Request.argIn, h]

theorem argIn_some {r : Request} {n} {lo hi v : Int} (h : r.arg n = some v) (h1 : lo ≤ v) (h2 : v ≤ hi) : r.argIn n lo hi = some v := by
  simp [Request.argIn, h, h1, h2]

theorem optArg_none {r : Request} {n hi} (h : r.arg n = none) : r.optArg n hi = some none := by simp [Request.optArg, h]

theorem optArg_some {r : Request} {n hi} {v : Nat} (h : r.arg n = some (v : Int)) (h2 : v ≤ hi) : r.optArg n hi = some (some v) := by
  simp [Request.optArg, h]; omega

theorem optArg_of {r : Request} {n hi} {o : Option Nat} (h : r.arg n = o.map Int.ofNat) (h2 : ∀ l ∈ o, l ≤ hi) : r.optArg n hi = some o := by
  cases o with
  | none => exact optArg_none h
  | some v => exact optArg_some h (h2 v rfl)

theorem channelArg_of {r : Request} {n} {c : ChannelNo} (h : r.arg n = some (c.1 : Int)) : r.channelArg n = some c := by
  unfold Request.channelArg
  rw [natArg_some h (Nat.zero_le _) (by omega)]
  exact index_eq c

/-! ## Requests -/

/-- A taken request is answered by its perform function, behind the requests that come before it; its owner then takes the
next. -/
theorem run_behind {s : State} {c : RequestCode} {p : Port} {r : Request} (h : takenRequest s c = some (p, r)) (f) :
    runRequest c f s = .next (finish c.owner
      (answer p r.code (f r (completeEarlier c.owner s)) (completeEarlier c.owner s))) := by
  simp [runRequest, h]

/-- A taken request with none before it is answered by its perform function on the state as it stands. -/
theorem run_eq {s : State} {c : RequestCode} {p : Port} {r : Request} (h : takenRequest s c = some (p, r))
    (h' : completeEarlier c.owner s = s) (f) :
    runRequest c f s = .next (finish c.owner (answer p r.code (f r s) s)) := by
  rw [run_behind h, h']

theorem run_none {s : State} {c : RequestCode} (h : takenRequest s c = none) (f) : runRequest c f s = .next s := by
  simp [runRequest, h]

/-- A run of a request answers a next state. -/
theorem run_next (c : RequestCode) (f : Request → State → Reply) (s : State) : ∃ t, runRequest c f s = .next t := by
  cases h : takenRequest s c with
  | none => exact ⟨s, run_none h f⟩
  | some x => exact ⟨_, run_behind h f⟩

/-- The common checks pass for a named account with no other expected cfg_rev. -/
theorem withTarget_pass {r : Request} {s : State} {i : SlotNo} (h1 : r.target = i.1)
    (h2 : r.expected = none ∨ r.expected = some (s.account i).cfgRev) (k) : withTarget r s k = k i (s.account i) := by
  rcases h2 with h2 | h2 <;> simp [withTarget, index_of h1, h2]

theorem withTarget_stale {r : Request} {s : State} {i : SlotNo} (h1 : r.target = i.1) {e} (h2 : r.expected = some e) (h3 : e ≠ (s.account i).cfgRev) (k) : withTarget r s k = .refused .stale := by
  simp [withTarget, index_of h1, h2, h3]

theorem withChannel_eq {r : Request} {s : State} {c : ChannelNo} (h : r.target = c.1) (k) : withChannel r s k = k c (s.channel c) := by
  simp [withChannel, index_of h]

theorem otherActive_false {s : State} {i : SlotNo} {k : Key} : otherActive s i k = false ↔
    ∀ j, j ≠ i → (s.account j).state = .active → (s.account j).key.stack = k.stack → (s.account j).key.substance ≠ k.substance := by
  unfold otherActive; rw [anyOf_false_iff]
  refine forall_congr' fun j => ?_
  simp

theorem names_iff {s : State} {c : ChannelNo} : anyOf (namesOxygen s c) = true ↔ ∃ d o, d ≠ c ∧ (s.channel d).oxygen = some o ∧ o.source = c := by
  rw [anyOf_true_iff]
  refine exists_congr fun d => ?_
  unfold namesOxygen
  cases hx : (s.channel d).oxygen <;> simp

theorem matchSet_bit (f : Nat → Bool) (first : Nat) : ∀ n : Fin 16, (matchSet f first).getLsbD n = f (first + n) := by
  intro n
  unfold matchSet
  have : ∀ (m : Nat), m ≤ 16 → ∀ k < 16, ((List.range m).foldl (fun acc i => if f (first + i) then acc ||| (1#32 <<< i) else acc) 0#32).getLsbD k = (decide (k < m) && f (first + k)) := by
    intro m
    induction m with
    | zero => intro _ k _; simp
    | succ m ih =>
      intro hm k hk
      rw [List.range_succ, List.foldl_append]
      simp only [List.foldl_cons, List.foldl_nil]
      split
      · rename_i hf
        rw [BitVec.getLsbD_or, ih (by omega) k hk]
        by_cases e : k = m
        · subst e; simp [hf]; omega
        · simp [BitVec.getLsbD_shiftLeft]
          by_cases e2 : k < m
          · simp [e2, Nat.le_of_lt e2]
          · have : ¬ k ≤ m := by omega
            simp [e2, this]; omega
      · rename_i hf
        rw [ih (by omega) k hk]
        by_cases e : k = m
        · subst e; simp [hf]
        · have : (decide (k < m + 1)) = decide (k < m) := by simp; omega
          rw [this]
  have := this 16 (by omega) n n.2
  simpa using this

/-! ## The window -/

/-- The move of a write frame and the write it carries do not meet. -/
theorem moveFrame_windowWrite (loc : Loc) (v : Byte) (s : State) :
    moveFrame false loc (windowWrite .a loc v s) = windowWrite .a loc v (moveFrame false loc s) := by
  simp only [windowWrite]
  show moveFrame _ _ _ = (if s.part = .stopped then _ else _)
  split
  · rfl
  split
  · rfl
  split
  · simp only [blockWrite]; rfl
  split
  · simp only [goWrite]
    show moveFrame _ _ _ = (if s.part ≠ .running then _ else match (s.common .a).area.state with | _ => _)
    split
    · rfl
    · show _ = (match (s.common .a).area.state with
        | .pending => _
        | .idle | .done => _)
      cases h : (s.common .a).area.state
      · simp only [submit]
        show _ = (match portCheck (latch .a (s.common .a).block) with | .error o => _ | .ok c => _)
        cases portCheck (latch .a (s.common .a).block) with
        | error o => rfl
        | ok c => cases c <;> rfl
      · have h2 : ((moveFrame false loc s).common .a).area.state = .pending := h
        rw [h2]; rfl
      · simp only [submit]
        show _ = (match portCheck (latch .a (s.common .a).block) with | .error o => _ | .ok c => _)
        cases portCheck (latch .a (s.common .a).block) with
        | error o => rfl
        | ok c => cases c <;> rfl
  split
  · rfl
  split
  · rfl
  split
  · rfl
  split
  · simp only [postingWrite]
    split
    · rfl
    split
    · rfl
    split
    · simp only [recordWrite]
      cases h : selected s with
      | none => rw [show selected (moveFrame false loc s) = none from h]
      | some x =>
        obtain ⟨c, n⟩ := x
        rw [show selected (moveFrame false loc s) = some (c, n) from h]
        dsimp only
        by_cases hc : ((s.slotPair c).get n).loaded = true ∨ s.part ≠ .running
        · rw [if_pos hc, if_pos (show (((moveFrame false loc s).slotPair c).get n).loaded = true ∨ (moveFrame false loc s).part ≠ .running from hc)]
        · rw [if_neg hc, if_neg (show ¬((((moveFrame false loc s).slotPair c).get n).loaded = true ∨ (moveFrame false loc s).part ≠ .running) from hc)]; rfl
    split
    · simp only [handOver]
      cases h : selected s with
      | none => rw [show selected (moveFrame false loc s) = none from h]
      | some x =>
        obtain ⟨c, n⟩ := x
        rw [show selected (moveFrame false loc s) = some (c, n) from h]
        dsimp only
        by_cases hc : handOverCode s c n = .accepted
        · rw [if_pos hc, if_pos (show handOverCode (moveFrame false loc s) c n = .accepted from hc)]; rfl
        · rw [if_neg hc, if_neg (show ¬ handOverCode (moveFrame false loc s) c n = .accepted from hc)]; rfl
    · rfl
  · rfl

theorem windowWrite_run {t : State} (h : t.part ≠ .stopped) (p : Port) (loc : Loc) (v : Byte) :
    windowWrite p loc v t =
      (if loc.toNat < 0x10 then t
      else if loc.toNat ≤ 0x2E then blockWrite p (loc.toNat - 0x10) v t
      else if loc.toNat = 0x2F then goWrite p t
      else if loc.toNat = 0x51 then holdPointer p v t
      else if loc.toNat = 0x52 then pointerWrite p v t
      else if loc.toNat < 0x60 ∨ p = .b then t
      else if loc.toNat ≤ 0x6F then postingWrite loc.toNat v t
      else { t with events := eventWrite loc.toNat v t.events }) := by
  unfold windowWrite; dsimp only; rw [if_neg h]

theorem pointAt_eq (loc : Loc) (s : State) (h : s.portB.phase = .selector) :
    pointAt .selector loc s = { s with portB := { s.portB with pointer := loc } } := by
  simp [pointAt, ← h]

theorem selectorRead_eq (loc : Loc) (s : State) (h1 : s.portB.lineBreak = false) (h2 : s.portB.phase = .selector) :
    selectorRead loc s = .next (readAt loc s) := by
  unfold selectorRead
  rw [if_pos (by simp [h1, h2])]
  unfold receiveByte
  rw [h1, h2]
  have : (1#1 ++ loc).msb = true := by
    rw [BitVec.msb_append]; rfl
  have h3 : (1#1 ++ loc).setWidth 7 = loc := by
    rw [BitVec.setWidth_append]; simp
  simp [this, h3]

theorem bitBytes_two (x : BitVec 16) : bitBytes 2 x = [x.extractLsb' 0 8, x.extractLsb' 8 8] := by
  simp only [bitBytes, natBytes, List.cons.injEq, and_true]
  constructor
  · apply BitVec.eq_of_toNat_eq; simp
  · apply BitVec.eq_of_toNat_eq; simp [Nat.shiftRight_eq_div_pow]

theorem bitBytes_three (x : BitVec 24) : bitBytes 3 x = [x.extractLsb' 0 8, x.extractLsb' 8 8, x.extractLsb' 16 8] := by
  simp only [bitBytes, natBytes, List.cons.injEq, and_true]
  refine ⟨?_, ?_, ?_⟩
  · apply BitVec.eq_of_toNat_eq; simp
  · apply BitVec.eq_of_toNat_eq; simp [Nat.shiftRight_eq_div_pow]
  · apply BitVec.eq_of_toNat_eq; simp [Nat.shiftRight_eq_div_pow, Nat.div_div_eq_div_mul]

/-! ## Collections under another clock -/

theorem recordGap_withClock (h : HalfHourStamp) (c : Clock) (s : State) :
    recordGap h { s with clock := c } = { recordGap h s with clock := c } := by
  unfold recordGap; dsimp only; (repeat' split) <;> rfl

theorem queueBatch_withClock (h : HalfHourStamp) (l : List Entry) (c : Clock) (s : State) :
    queueBatch h l { s with clock := c } = { queueBatch h l s with clock := c } := by
  unfold queueBatch; dsimp only; (repeat' split) <;> first | rfl | exact recordGap_withClock ..

/-- An offer changes the queue and the Event Unit at most. -/
theorem queueBatch_frame (h : HalfHourStamp) (l : List Entry) (s : State) :
    queueBatch h l s = { s with queue := (queueBatch h l s).queue, events := (queueBatch h l s).events } := by
  unfold queueBatch; (repeat' split) <;> first | rfl | rw [recordGap_frame]

/-- The close of a half-hour: the offer of its batch, the restart of the accumulators and counts, and HALF_HOUR_CLOSED. -/
theorem closeHalfHour_eq (h : HalfHourStamp) (s : State) :
    closeHalfHour h s =
      raiseEvent .halfHourClosed h.hh (restartHalfHour (takeUp .engine (queueBatch h (batch s h) s))) := rfl

theorem closeHalfHour_queue (h : HalfHourStamp) (s : State) :
    (closeHalfHour h s).queue = (queueBatch h (batch s h) s).queue := by
  rw [closeHalfHour_eq]; generalize queueBatch h (batch s h) s = t; rfl

theorem closeHalfHour_events (h : HalfHourStamp) (s : State) :
    (closeHalfHour h s).events = (queueBatch h (batch s h) s).events.record .halfHourClosed h.hh := by
  rw [closeHalfHour_eq]; generalize queueBatch h (batch s h) s = t; rfl

theorem offerBatch_withClock (h : HalfHourStamp) (l : List Entry) (c : Clock) (s : State) :
    offerBatch h l { s with clock := c } = { offerBatch h l s with clock := c } := by
  unfold offerBatch; rw [queueBatch_withClock]; rfl

theorem closeHalfHour_withClock (h : HalfHourStamp) (c : Clock) (s : State) :
    closeHalfHour h { s with clock := c } = { closeHalfHour h s with clock := c } := by
  unfold closeHalfHour
  rw [show batch { s with clock := c } h = batch s h from rfl, offerBatch_withClock]; rfl

theorem collectMinute_withClock (m : MinuteStamp) (b : Bool) (c : Clock) (s : State) :
    collectMinute m b { s with clock := c } = { collectMinute m b s with clock := c } := by
  have h1 : collectRecords m b { s with clock := c } = { collectRecords m b s with clock := c } := rfl
  have h2 : firstMissing { s with clock := c } m = firstMissing s m := rfl
  unfold collectMinute; dsimp only; rw [h1, h2]
  cases firstMissing s m <;> dsimp only
  · split
    · exact closeHalfHour_withClock ..
    · rfl
  · split
    · rw [show ∀ d, raiseEvent .minuteIncomplete d { collectRecords m b s with clock := c } = { raiseEvent .minuteIncomplete d (collectRecords m b s) with clock := c } from fun _ => rfl]
      exact closeHalfHour_withClock ..
    · rfl

theorem collectGrace_none {s : State} (h : s.clock.inGrace = none) : collectGrace s = s := by
  simp [collectGrace, h]

/-! ## Accounts -/

theorem account_setAccount_self (s : State) (i : SlotNo) (a : Account) : (s.setAccount i a).account i = a := by simp [State.account, State.setAccount]

theorem setAccount_setAccount (s : State) (i : SlotNo) (a b : Account) : (s.setAccount i a).setAccount i b = s.setAccount i b := by
  unfold State.setAccount; dsimp only; congr 1; unfold put; simp

theorem account_setAccount_ne (s : State) (i j : SlotNo) (a : Account) (h : j ≠ i) : (s.setAccount i a).account j = s.account j := by
  simp [State.account, State.setAccount, Ne.symm h]

theorem setAccount_account (s : State) (i : SlotNo) : s.setAccount i (s.account i) = s := by
  unfold State.setAccount State.account put
  have : s.accounts.set i.1 (s.accounts.get i) i.2 = s.accounts := by
    ext j hj; simp [Vector.getElem_set]; rintro rfl; rfl
  rw [this]

theorem updCurrent_eq {s : State} {i : SlotNo} {c : CurrentSide} (h : (s.account i).current = some c) (f) :
    s.updCurrent i f = s.setAccount i { s.account i with current := some (f c) } := by
  unfold State.updCurrent; simp [h]

theorem endEpisodes_none {s : State} {q : Subject → Bool} {h : HalfHourStamp} (hno : ∀ x ∈ s.episodes, (x.isOpen && q x.subject) = false) :
    endEpisodes q h s = s := by
  unfold endEpisodes; dsimp only
  have hf : s.episodes.filter (fun x => x.isOpen && q x.subject) = [] := by
    rw [List.filter_eq_nil_iff]; intro x hx; simp [hno x hx]
  rw [hf]
  have hm : s.episodes.filterMap (fun x => if (x.isOpen && q x.subject) = true then (if x.acknowledged = true then none else some { x with ended := some h }) else some x) = s.episodes := by
    have := List.filterMap_congr (l := s.episodes) (f := fun x => if (x.isOpen && q x.subject) = true then (if x.acknowledged = true then none else some { x with ended := some h }) else some x) (g := some) (fun x hx => by rw [hno x hx]; rfl)
    rw [this, List.filterMap_some]
  rw [hm]; rfl

theorem no_open {s : State} {u : Subject} (h : openEpisode s u = none) : ∀ x ∈ s.episodes, (x.isOpen && x.subject == u) = false := by
  intro x hx
  have := List.find?_eq_none.mp h x hx
  simpa using this

/-! ## Slot by slot -/

/-- A run over the slots in which each turn changes its own account only, by a function of that account. -/
theorem forEach_account (f : SlotNo → State → State) (g : SlotNo → Account → Account)
    (own : ∀ i s, (f i s).account i = g i (s.account i))
    (other : ∀ i j s, j ≠ i → (f i s).account j = s.account j) (i : SlotNo) (s : State) :
    (forEach 128 f s).account i = g i (s.account i) := by
  have key : ∀ (l : List SlotNo), l.Nodup → ∀ s : State,
      (l.foldl (fun t j => f j t) s).account i = if i ∈ l then g i (s.account i) else s.account i := by
    intro l
    induction l with
    | nil => intro _ s; simp
    | cons j l ih =>
      intro hn s
      rw [List.nodup_cons] at hn
      rw [List.foldl_cons, ih hn.2]
      by_cases e : i = j
      · subst e; simp [hn.1, own]
      · simp [e, other j i s e]
  have := key (List.finRange 128) (List.nodup_finRange 128) s
  simpa [forEach] using this

/-- The day close of one slot on its account. -/
theorem closeDayOf_own (Y D : Nat) (i : SlotNo) (s : State) :
    (closeDayOf Y D i s).account i =
      match (s.account i).current with
      | some c =>
        if dayEndApplies (s.account i) Y D then
          { s.account i with current := some (closeDaySide (s.account i).terms Y D c) }
        else s.account i
      | none => s.account i := by
  unfold closeDayOf; dsimp only
  cases hc : (s.account i).current with
  | none => rfl
  | some c =>
    dsimp only
    by_cases h : dayEndApplies (s.account i) Y D = true
    · rw [if_pos h, if_pos h]
      split <;> exact account_setAccount_self ..
    · rw [if_neg h, if_neg h]

theorem closeDayOf_other (Y D : Nat) (i j : SlotNo) (s : State) (h : j ≠ i) :
    (closeDayOf Y D i s).account j = s.account j := by
  unfold closeDayOf; dsimp only
  split
  · split
    · split <;> exact account_setAccount_ne _ _ _ _ h
    · rfl
  · rfl

/-- The year close of one slot on its account. -/
theorem closeYearOf_own (Y : Nat) (i : SlotNo) (s : State) :
    (closeYearOf Y i s).account i =
      match (s.account i).current with
      | some c => if yearEndApplies (s.account i) Y then closeYearAccount (s.account i) Y c else s.account i
      | none => s.account i := by
  unfold closeYearOf; dsimp only
  cases hc : (s.account i).current with
  | none => rfl
  | some c =>
    dsimp only
    by_cases h : yearEndApplies (s.account i) Y = true
    · rw [if_pos h, if_pos h]
      split <;> exact account_setAccount_self ..
    · rw [if_neg h, if_neg h]

theorem closeYearOf_other (Y : Nat) (i j : SlotNo) (s : State) (h : j ≠ i) :
    (closeYearOf Y i s).account j = s.account j := by
  unfold closeYearOf; dsimp only
  split
  · split
    · split <;> exact account_setAccount_ne _ _ _ _ h
    · rfl
  · rfl

theorem account_raiseEvent (e : EventSource) (d : Nat) (s : State) (i : SlotNo) : (raiseEvent e d s).account i = s.account i := rfl

theorem events_raiseEvent (e : EventSource) (d : Nat) (s : State) : (raiseEvent e d s).events = s.events.record e d := rfl

theorem account_moveYear (s : State) (i : SlotNo) : (moveYear s).account i = s.account i := rfl

theorem account_removeHead (s : State) (i : SlotNo) : (removeHead s).account i = s.account i := rfl

/-- The whole day close on one account. -/
theorem closeDay_account (Y D : Nat) (s : State) (i : SlotNo) :
    (closeDay Y D s).account i =
      match (s.account i).current with
      | some c =>
        if dayEndApplies (s.account i) Y D then
          { s.account i with current := some (closeDaySide (s.account i).terms Y D c) }
        else s.account i
      | none => s.account i := by
  unfold closeDay
  rw [account_raiseEvent]
  rw [forEach_account (closeDayOf Y D) (fun _ a =>
    match a.current with
    | some c => if dayEndApplies a Y D then { a with current := some (closeDaySide a.terms Y D c) } else a
    | none => a) (closeDayOf_own Y D) (closeDayOf_other Y D)]

/-- The whole year close on one account, after the OPEN EXCEEDANCE episodes have ended. -/
theorem closeYear_account (Y : Nat) (s : State) (i : SlotNo) :
    (closeYear Y s).account i =
      let a := (endEpisodes Subject.isExceedance ⟨Y, daysInYear Y, 47⟩ s).account i
      match a.current with
      | some c => if yearEndApplies a Y then closeYearAccount a Y c else a
      | none => a := by
  unfold closeYear
  rw [account_raiseEvent, account_moveYear]
  rw [forEach_account (closeYearOf Y) (fun _ a =>
    match a.current with
    | some c => if yearEndApplies a Y then closeYearAccount a Y c else a
    | none => a) (closeYearOf_own Y) (closeYearOf_other Y)]

/-- The gap charge of one slot on its account. -/
theorem chargeGap_own (i : SlotNo) (s : State) :
    (chargeGap i s).account i =
      if (s.account i).state = .active ∨ (s.account i).state = .frozen then
        { s.account i with current := (s.account i).current.map countGap }
      else s.account i := by
  unfold chargeGap
  split
  · exact account_setAccount_self ..
  · rfl

theorem chargeGap_other (i j : SlotNo) (s : State) (h : j ≠ i) : (chargeGap i s).account j = s.account j := by
  unfold chargeGap
  split
  · exact account_setAccount_ne _ _ _ _ h
  · rfl

/-- Recording an event leaves every enable as it is. -/
theorem record_enable (u : EventUnit) (e : EventSource) (d : Nat) (i : Fin 16) :
    ((u.record e d).sources.get i).enable = (u.sources.get i).enable := by
  unfold EventUnit.record; dsimp only
  split
  · by_cases h : i = e.number
    · subst h; simp
    · simp [Ne.symm h]
  · rfl

/-- An enabled source takes the event. -/
theorem record_self {u : EventUnit} {e : EventSource} (d : Nat) (h : (u.sources.get e.number).enable = true) :
    ((u.record e d).sources.get e.number).pending = true ∧
    ((u.record e d).sources.get e.number).detail = BitVec.ofNat 16 d := by
  simp [EventUnit.record, h]

/-- A run over the slots that changes the Event Unit by recording only leaves every enable as it is. -/
theorem forEach_enable (f : SlotNo → State → State)
    (h : ∀ i s k, ((f i s).events.sources.get k).enable = (s.events.sources.get k).enable) (s : State) (k : Fin 16) :
    ((forEach 128 f s).events.sources.get k).enable = (s.events.sources.get k).enable := by
  unfold forEach
  generalize List.finRange 128 = l
  induction l generalizing s with
  | nil => rfl
  | cons x l ih => rw [List.foldl_cons, ih, h]

theorem closeDayOf_enable (Y D : Nat) (i : SlotNo) (s : State) (k : Fin 16) :
    ((closeDayOf Y D i s).events.sources.get k).enable = (s.events.sources.get k).enable := by
  unfold closeDayOf; dsimp only
  (repeat' split) <;> first | exact record_enable .. | rfl

theorem closeYearOf_enable (Y : Nat) (i : SlotNo) (s : State) (k : Fin 16) :
    ((closeYearOf Y i s).events.sources.get k).enable = (s.events.sources.get k).enable := by
  unfold closeYearOf; dsimp only
  (repeat' split) <;> first | exact record_enable .. | rfl

/-- DAY_CLOSED stands after the day close, when it is enabled. -/
theorem closeDay_event (Y D : Nat) (s : State) (h : (s.events.sources.get 6).enable = true) :
    ((closeDay Y D s).events.sources.get 6).pending = true ∧
    ((closeDay Y D s).events.sources.get 6).detail = BitVec.ofNat 16 D := by
  unfold closeDay
  rw [events_raiseEvent]
  refine record_self (e := .dayClosed) D ?_
  rw [forEach_enable _ (closeDayOf_enable Y D)]
  exact h

end Sys2Proof.Machine
end

