-- ==== Sys2Proof/Laws/Requests.lean ====
section
/-! SUPPORT. What the performance of a request changes, and what an owner takes up and completes. -/

namespace Sys2Proof.Machine

/-! ## The performance of a request -/

/-- What the performance of a request leaves as it is: the ports, the pins, the time, the part's phase, the episode counter,
the kind of the last claim and what the Stack Monitor and the Period Clock have in hand. -/
def Kept (s t : State) : Prop :=
  t = { s with
    clock := t.clock, inputs := t.inputs, slots := t.slots, accumulators := t.accumulators, counts := t.counts
    queue := t.queue, accounts := t.accounts, channels := t.channels, allowances := t.allowances
    episodes := t.episodes, inFlight := t.inFlight, handOrder := t.handOrder, events := t.events }

/-- A passing RESUME: the clock's part, behind the outage gap where there is one. -/
theorem performResume_done (r : Request) (s : State) (v : List Word32) (t : State) (h : performResume r s = .done v t) :
    ∃ p S, t = resumeAt p s ∨ t = resumeAt p (takeUp .engine (appendGap S (p.halfHour.count - S.count) s)) := by
  unfold performResume at h
  split at h
  · cases h
  cases hm : minuteArg r with
  | none => simp [hm] at h
  | some p =>
    cases hs : s.clock.saved with
    | none => simp [hm, hs] at h
    | some S =>
      simp only [hm, hs] at h
      split at h
      · cases h
      split at h
      · cases h
      split at h
      · cases h
      injection h with _ h
      subst h
      refine ⟨p, S.halfHour, ?_⟩
      split
      · exact .inl rfl
      · exact .inr rfl

/-- A request performed with DONE keeps what `Kept` says, and only RESUME reaches the queue. -/
theorem performRequest_done (c : RequestCode) (r : Request) (s : State) (v : List Word32) (t : State)
    (h : performRequest c r s = .done v t) : Kept s t ∧ (c ≠ .resume → t.queue = s.queue ∧ t.inFlight = s.inFlight) := by
  by_cases hc : c = .resume
  · subst hc
    refine ⟨?_, fun h => absurd rfl h⟩
    obtain ⟨p, S, rfl | rfl⟩ := performResume_done r s v t h
    · rfl
    · unfold takeUp
      dsimp only [takeHand]
      generalize orderAfter _ _ = order
      generalize nextClaim _ = claim
      rfl
  cases c <;> simp only [performRequest] at h <;> (try exact absurd rfl hc) <;>
    (first
      | unfold performCreateAccount at h
      | unfold performSetLimits at h
      | unfold performLinkSource at h
      | unfold performActivate at h
      | unfold performAmend at h
      | unfold performReassign at h
      | unfold performRetire at h
      | unfold performDeleteDraft at h
      | unfold performCertify at h
      | unfold performMark at h
      | unfold performConfigureChannel at h
      | unfold performStartChannel at h
      | unfold performStopChannel at h
      | unfold performReleaseChannel at h
      | unfold performReadChannel at h
      | unfold performSetAllowance at h
      | unfold performReadStack at h
      | unfold performAckEpisode at h
      | unfold performReadEpisode at h
      | unfold performFind at h
      | unfold performReadAccount at h
      | unfold performSetFeedInput at h
      | unfold performDeclareAbnormal at h
      | unfold performEndAbnormal at h
      | unfold performSetGrace at h
      | unfold performSetCalendar at h) <;>
    (try unfold withTarget at h) <;> (try unfold withChannel at h) <;> (try unfold withClockAndBacklog at h) <;>
    (try dsimp only at h) <;> (repeat' split at h) <;>
    first
    | (cases h; done)
    | (injection h with _ h
       subst h
       first
       | exact ⟨rfl, fun _ => ⟨rfl, rfl⟩⟩
       | (refine ⟨?_, fun _ => ⟨?_, ?_⟩⟩ <;> (try unfold Kept) <;> unfold State.setLinkOf <;> split <;> rfl)
       | (rw [storeAllowances_frame]; exact ⟨rfl, fun _ => ⟨rfl, rfl⟩⟩))

/-- An answered request changes the tables, the clock, the queue, the Event Unit and the ports at most. -/
theorem answer_kept (c : RequestCode) (p : Port) (r : Request) (s : State) :
    answer p r.code (performRequest c r s) s = { s with
      clock := (answer p r.code (performRequest c r s) s).clock, inputs := (answer p r.code (performRequest c r s) s).inputs
      slots := (answer p r.code (performRequest c r s) s).slots
      accumulators := (answer p r.code (performRequest c r s) s).accumulators
      counts := (answer p r.code (performRequest c r s) s).counts
      queue := (answer p r.code (performRequest c r s) s).queue
      accounts := (answer p r.code (performRequest c r s) s).accounts
      channels := (answer p r.code (performRequest c r s) s).channels
      allowances := (answer p r.code (performRequest c r s) s).allowances
      episodes := (answer p r.code (performRequest c r s) s).episodes
      inFlight := (answer p r.code (performRequest c r s) s).inFlight, handOrder := (answer p r.code (performRequest c r s) s).handOrder
      events := (answer p r.code (performRequest c r s) s).events
      portA := (answer p r.code (performRequest c r s) s).portA
      portB := (answer p r.code (performRequest c r s) s).portB } := by
  cases h : performRequest c r s with
  | refused o => cases p <;> rfl
  | done v t =>
    have := (performRequest_done c r s v t h).1
    unfold Kept at this
    rw [this]; cases p <;> rfl
  | read v snap => cases p <;> rfl

/-! ## Owners -/

/-- Taking up changes what an owner has in hand and nothing else. -/
theorem takeUp_frame (o : Owner) (s : State) :
    takeUp o s = { s with
      inFlight := (takeUp o s).inFlight, handOrder := (takeUp o s).handOrder, monitorHand := (takeUp o s).monitorHand, clockHand := (takeUp o s).clockHand } := by
  cases o <;> rfl

/-- A request's code byte names it. -/
theorem ofByte_byte (c : RequestCode) : RequestCode.ofByte c.byte = some c := by cases c <;> rfl

/-- A request waits at an owner exactly when its area is PENDING with a code of that owner. -/
theorem waitingAt_iff (s : State) (o : Owner) (p : Port) (r : Request) :
    waitingAt s o p = some r ↔ (s.common p).area.state = .pending ∧ (s.common p).area.latched = some r ∧
      ∃ c, RequestCode.ofByte r.code = some c ∧ c.owner = o := by
  unfold waitingAt; dsimp only
  cases (s.common p).area.state <;> cases h : (s.common p).area.latched <;> simp
  rename_i q
  cases hc : RequestCode.ofByte q.code with
  | none => simp; rintro rfl; simp [hc]
  | some c =>
    simp only
    constructor
    · intro h; split at h
      · cases h; exact ⟨rfl, c, hc, by assumption⟩
      · cases h
    · rintro ⟨rfl, d, hd, rfl⟩
      rw [hc] at hd; cases hd; simp

/-! ## What is in hand -/

/-- The request in hand is the one that waits in the area of the port in hand, under its code. -/
theorem handRequest_iff {s : State} {o : Owner} {p : Port} {c : RequestCode} {r : Request} :
    handRequest s o = some (p, c, r) ↔ inHand s o = some p ∧ waitingAt s o p = some r ∧ RequestCode.ofByte r.code = some c := by
  unfold handRequest
  cases h1 : inHand s o with
  | none => simp
  | some q =>
    dsimp only
    cases h2 : waitingAt s o q with
    | none => simp; rintro rfl; simp [h2]
    | some x =>
      dsimp only
      constructor
      · intro h
        obtain ⟨d, h3, h4⟩ := Option.map_eq_some_iff.mp h
        cases h4
        exact ⟨rfl, h2, h3⟩
      · rintro ⟨hq, hw, hc⟩
        cases hq
        rw [h2] at hw; cases hw
        rw [hc]; rfl

/-- A request of code c in hand at its owner. -/
theorem handRequest_eq {c : RequestCode} {p : Port} {r : Request} {s : State} (h1 : inHand s c.owner = some p)
    (h2 : waitingAt s c.owner p = some r) (h3 : r.code = c.byte) : handRequest s c.owner = some (p, c, r) :=
  handRequest_iff.mpr ⟨h1, h2, by rw [h3, ofByte_byte]⟩

/-- An owner with nothing in hand completes nothing. -/
theorem completeInHand_none {o : Owner} {s : State} (h : inHand s o = none) : completeInHand o s = s := by
  simp [completeInHand, handRequest, h]

/-- The request in hand of an owner is performed and answered, and the owner takes the next. -/
theorem completeInHand_eq {c : RequestCode} {p : Port} {r : Request} {s : State} (h1 : inHand s c.owner = some p)
    (h2 : waitingAt s c.owner p = some r) (h3 : r.code = c.byte) :
    completeInHand c.owner s = finish c.owner (answer p r.code (performRequest c r s) s) := by
  unfold completeInHand
  rw [handRequest_eq h1 h2 h3]

/-- With nothing in hand an event finds the state as it stands. -/
theorem completeFirst_none {s : State} (h : ∀ o, inHand s o = none) : completeFirst s = s := by
  unfold completeFirst
  split
  · exact completeInHand_none (h _)
  · rfl

theorem completeAll_none {s : State} (h : ∀ o, inHand s o = none) : completeAll s = s := by
  unfold completeAll
  rw [completeFirst_none h, completeFirst_none h]

/-- Where no other owner has a request in hand that crosses owners, an owner finds the state as it stands. -/
theorem completeEarlier_none {s : State} {o : Owner}
    (h : ∀ q, q ≠ o → ∀ p c r, handRequest s q = some (p, c, r) → c.crossesOwners = false) : completeEarlier o s = s := by
  have one : completeEarlierFirst o s = s := by
    unfold completeEarlierFirst
    split
    · rename_i q e
      have hq : q ≠ o := by simpa using List.mem_takeWhile_imp (List.mem_of_find?_eq_some e)
      have hc := List.find?_some e
      unfold handCrosses at hc
      split at hc
      · rename_i p c r hr; rw [h q hq p c r hr] at hc; cases hc
      · cases hc
    · rfl
  unfold completeEarlier
  rw [one, one]

/-- What every completion of requests in hand keeps: a property that the completion of each request keeps. -/
theorem completeInHand_induct {P : State → Prop}
    (step : ∀ s o p c r, P s → handRequest s o = some (p, c, r) → P (finish o (answer p r.code (performRequest c r s) s)))
    {s : State} (h : P s) (o : Owner) : P (completeInHand o s) := by
  unfold completeInHand
  split
  · rename_i p c r e; exact step s o p c r h e
  · exact h

/-- The same for all that is in hand. -/
theorem completeAll_induct {P : State → Prop}
    (step : ∀ s o p c r, P s → handRequest s o = some (p, c, r) → P (finish o (answer p r.code (performRequest c r s) s)))
    {s : State} (h : P s) : P (completeAll s) := by
  have one : ∀ t, P t → P (completeFirst t) := by
    intro t ht; unfold completeFirst; split
    · exact completeInHand_induct step ht _
    · exact ht
  exact one _ (one _ h)

/-- The same for what an owner finds completed before its own request or absorption. -/
theorem completeEarlier_induct {P : State → Prop}
    (step : ∀ s o p c r, P s → handRequest s o = some (p, c, r) → P (finish o (answer p r.code (performRequest c r s) s)))
    {s : State} (h : P s) (o : Owner) : P (completeEarlier o s) := by
  have one : ∀ t, P t → P (completeEarlierFirst o t) := by
    intro t ht; unfold completeEarlierFirst; split
    · exact completeInHand_induct step ht _
    · exact ht
  exact one _ (one _ h)

/-! ## Ports of an answered request -/

/-- A code byte that names a request is its byte. -/
theorem byte_ofByte {b : Byte} {c : RequestCode} (h : RequestCode.ofByte b = some c) : b = c.byte := by
  have := List.find?_some h
  exact (eq_of_beq this).symm

theorem common_setCommon_self (p : Port) (c : PortCommon) (s : State) : (s.setCommon p c).common p = c := by cases p <;> rfl

theorem common_setCommon_ne {p q : Port} (h : q ≠ p) (c : PortCommon) (s : State) :
    (s.setCommon p c).common q = s.common q := by
  cases p <;> cases q <;> first | rfl | exact absurd rfl h

/-- An answered request's area is DONE. -/
theorem answer_done (p : Port) (b : Byte) (reply : Reply) (s : State) :
    ((answer p b reply s).common p).area.state = .done := by
  cases reply <;> (unfold answer complete; dsimp only; rw [common_raiseEvent, common_setCommon_self])

/-- An answered request leaves the other port as it is. -/
theorem answer_common_ne {p q : Port} (h : q ≠ p) (c : RequestCode) (r : Request) (b : Byte) (s : State) :
    (answer p b (performRequest c r s) s).common q = s.common q := by
  have key : ∀ (o : ReqOutcome) (l : List Word32) (t : State), (complete p b o l t).common q = t.common q := by
    intro o l t
    unfold complete; dsimp only; rw [common_raiseEvent, common_setCommon_ne h]
  cases e : performRequest c r s with
  | refused o => exact key ..
  | done v t =>
    have := (performRequest_done c r s v t e).1
    show (complete p b .done v t).common q = _
    rw [key]
    unfold Kept at this
    rw [this]; cases q <;> rfl
  | read v snap =>
    show (complete p b .done v (setView p snap s)).common q = _
    rw [key]
    unfold setView; exact common_setCommon_ne h _ _

/-- No request waits in a DONE area. -/
theorem waitingAt_done {s : State} {o : Owner} {p : Port} (h : (s.common p).area.state = .done) : waitingAt s o p = none := by
  unfold waitingAt; dsimp only; rw [h]

/-- A request waits at the owner of its code. -/
theorem owner_of_waiting {s : State} {o : Owner} {p : Port} {r : Request} {c : RequestCode} (h : waitingAt s o p = some r)
    (h2 : r.code = c.byte) : c.owner = o := by
  obtain ⟨_, _, d, h3, h4⟩ := (waitingAt_iff s o p r).mp h
  rw [h2, ofByte_byte] at h3; cases h3; exact h4

/-- Two completions leave none to complete: each port has one request at most. -/
theorem completeFirst_thrice (s : State) :
    completeFirst (completeFirst (completeFirst s)) = completeFirst (completeFirst s) := by
  have idle : ∀ t : State, (∀ o p, waitingAt t o p = none) → completeFirst t = t := by
    intro t h; unfold completeFirst; split
    · unfold completeInHand
      split
      · rename_i e; have := (handRequest_iff.mp e).2.1; rw [h] at this; cases this
      · rfl
    · rfl
  have one : ∀ t : State, completeFirst t = t ∨ ∃ p, (∃ o, (waitingAt t o p).isSome) ∧
      ((completeFirst t).common p).area.state = .done ∧ ∀ q, q ≠ p → (completeFirst t).common q = t.common q := by
    intro t
    unfold completeFirst
    split
    · rename_i o _ _
      unfold completeInHand
      split
      · rename_i p c r e
        refine .inr ⟨p, ⟨o, by rw [(handRequest_iff.mp e).2.1]; rfl⟩, ?_, ?_⟩
        · rw [common_finish]; exact answer_done ..
        · intro q hq; rw [common_finish]; exact answer_common_ne hq ..
      · exact .inl rfl
    · exact .inl rfl
  rcases one s with h | ⟨p, _, hp, _⟩
  · rw [h, h, h]
  rcases one (completeFirst s) with h | ⟨q, ⟨o, ho⟩, hq, hne⟩
  · rw [h, h]
  have hpq : p ≠ q := by
    rintro rfl
    rw [waitingAt_done hp] at ho; cases ho
  apply idle
  intro o' x
  apply waitingAt_done
  by_cases hx : x = q
  · subst hx; exact hq
  · have : x = p := by
      cases x <;> cases p <;> cases q <;> first | rfl | (exact absurd rfl hx) | (exact absurd rfl hpq)
    subst this
    rw [hne x hx]; exact hp

end Sys2Proof.Machine
end

