-- ==== Sys2Proof/Laws/Window.lean ====
section
/-! SUPPORT. What reads of the window and the bytes of snapshots are: a read without an effect, the bits of a set of sources,
the selected slot, the lengths of the byte groups; and a source recorded for several slots in turn. -/

namespace Sys2Proof.Machine

/-- A read of a location without an effect changes nothing. -/
theorem windowRead_plain {p : Port} {loc : Loc} {s : State} (h : ¬ (s.part = .stopped ∧ 0x0F < loc.toNat))
    (h4 : loc.toNat ≠ 0x04) (h53 : loc.toNat ≠ 0x53) (ha : p = .a → loc.toNat ≠ 0x79 ∧ loc.toNat ≠ 0x7F) :
    windowRead p loc s = (plainRead p loc.toNat s, s) := by
  unfold windowRead; dsimp only
  rw [if_neg h, if_neg h4, if_neg h53, if_neg (fun x => (ha x.2).1 x.1), if_neg (fun x => (ha x.2).2 x.1)]

/-- Identification and part status but for 0x04, in every phase of the part. -/
theorem windowRead_status {p : Port} {loc : Loc} {s : State} (h : loc.toNat ≤ 0x0F) (h4 : loc.toNat ≠ 0x04) :
    windowRead p loc s = (statusRead p loc.toNat s, s) := by
  rw [windowRead_plain (by omega) h4 (by omega) (by omega)]
  unfold plainRead; dsimp only; rw [if_pos h]

/-- Bit i mod 8 of a byte of a set of sources is source i's. -/
theorem setByte_bit (u : EventUnit) (f : SourceRecord → Bool) (half : Nat) (i : Fin 16) (h : i.1 / 8 = half) :
    (u.setByte f half).getLsbD (i.1 % 8) = f (u.sources.get i) := by
  unfold EventUnit.setByte
  have key : ∀ (l : List (Fin 16)) (acc : Byte), l.Nodup →
      (l.foldl (fun acc j => if j.1 / 8 = half && f (u.sources.get j) then acc ||| (1#8 <<< (j.1 % 8)) else acc)
          acc).getLsbD (i.1 % 8) =
        (acc.getLsbD (i.1 % 8) || (decide (i ∈ l) && f (u.sources.get i))) := by
    intro l; induction l with
    | nil => intro acc _; simp
    | cons j l ih =>
      intro acc hn
      rw [List.nodup_cons] at hn
      rw [List.foldl_cons, ih _ hn.2]
      by_cases hj : i = j
      · subst hj
        have hb : (1#8 <<< (i.1 % 8)).getLsbD (i.1 % 8) = true := by
          have : i.1 % 8 < 8 := Nat.mod_lt _ (by omega)
          simp [this]
        cases hf : f (u.sources.get i) <;> simp [h, hn.1]
        right; simpa using hb
      · by_cases h2 : (decide (j.1 / 8 = half) && f (u.sources.get j)) = true
        · rw [if_pos h2]
          have hne : j.1 % 8 ≠ i.1 % 8 := by
            simp at h2; intro e; apply hj; apply Fin.ext; omega
          have hb : (1#8 <<< (j.1 % 8)).getLsbD (i.1 % 8) = false := by
            have h1 : i.1 % 8 < 8 := Nat.mod_lt _ (by omega)
            have h3 : j.1 % 8 < 8 := Nat.mod_lt _ (by omega)
            revert hne h1 h3; generalize i.1 % 8 = a; generalize j.1 % 8 = b
            intro hne h1 h3
            interval_cases a <;> interval_cases b <;> first | rfl | exact absurd rfl hne
          simp [hb, hj]
        · rw [if_neg h2]; simp [hj]
  rw [key _ _ (List.nodup_finRange 16)]
  simp

/-- The slot that the two selects name. -/
theorem selected_iff (s : State) (c : ChannelNo) (k : SlotName) :
    selected s = some (c, k) ↔
      s.portA.channelSelect.toNat = c.1 ∧ s.portA.slotSelect = (match k with
        | .x => 0
        | .y => 1) := by
  unfold selected index? slotName?
  generalize s.portA.channelSelect.toNat = a
  generalize s.portA.slotSelect = b
  have h0 : b.toNat = 0 ↔ b = 0 := ⟨fun h => BitVec.eq_of_toNat_eq h, fun h => by rw [h]; rfl⟩
  have h1 : b.toNat = 1 ↔ b = 1 := ⟨fun h => BitVec.eq_of_toNat_eq h, fun h => by rw [h]; rfl⟩
  by_cases ha : a < 48
  · have hx : (⟨a, ha⟩ : Fin 48) = c ↔ a = c.1 := ⟨fun h => by rw [← h], fun h => Fin.ext h⟩
    rw [dif_pos ha]
    by_cases hb0 : b.toNat = 0
    · rw [if_pos hb0]; have := h0.mp hb0; subst this
      cases k <;> simp [hx]
    · rw [if_neg hb0]
      by_cases hb1 : b.toNat = 1
      · rw [if_pos hb1]; have := h1.mp hb1; subst this
        cases k <;> simp [hx]
      · rw [if_neg hb1]
        cases k
        · simp; intro _ h; exact hb0 (h0.mpr h)
        · simp; intro _ h; exact hb1 (h1.mpr h)
  · rw [dif_neg ha]; simp; intro h; exact absurd (h ▸ c.isLt) ha

/-! ## Lengths of byte groups (12 R186) -/

theorem natBytes_length (n : Nat) : ∀ v, (natBytes n v).length = n := by
  induction n with
  | zero => intro v; rfl
  | succ n ih => intro v; simp [natBytes, ih]

theorem bitBytes_length {w : Nat} (n : Nat) (v : BitVec w) : (bitBytes n v).length = n := natBytes_length n _

theorem onesBytes_length (n : Nat) : (onesBytes n).length = n := by simp [onesBytes]

theorem natBytesOr_length (n : Nat) (v : Option Nat) : (natBytesOr n v).length = n := by
  cases v <;> simp [natBytesOr, natBytes_length, onesBytes_length]

theorem wordBytesOr_length (v : Option Word32) : (wordBytesOr v).length = 4 := by
  cases v <;> simp [wordBytesOr, bitBytes_length, onesBytes_length]

theorem halfHourBytesOr_length (v : Option HalfHourStamp) : (halfHourBytesOr v).length = 4 := wordBytesOr_length _

theorem yearPart_bytes_length (y : YearPart) : y.bytes.length = 44 := by
  have hd : (maxDayBytes y.maxDay).length = 6 := by
    cases y.maxDay <;> simp [maxDayBytes, natBytes_length, onesBytes_length]
  have hh : (maxHalfHourBytes y.maxHalfHour).length = 8 := by
    cases y.maxHalfHour <;> simp [maxHalfHourBytes, natBytes_length, bitBytes_length, onesBytes_length]
  simp [YearPart.bytes, natBytes_length, hd, hh]

theorem currentSideBytes_length (c : Option CurrentSide) : (currentSideBytes c).length = 63 := by
  cases c <;> simp [currentSideBytes, DayPart.bytes, natBytes_length, bitBytes_length, yearPart_bytes_length]

theorem closedSideBytes_length (c : Option ClosedSide) : (closedSideBytes c).length = 50 := by
  cases c <;> simp [closedSideBytes, natBytes_length, bitBytes_length, yearPart_bytes_length]

/-! ## A source raised for several slots in turn (11 R176) -/

/-- Only the source's record changes; not enabled, nothing changes; enabled, it is pending with the last slot. -/
theorem recordEach (e : EventSource) (m : List SlotNo) (u : EventUnit) :
    let v := m.foldl (fun (u : EventUnit) (i : SlotNo) => u.record e i) u
    v = { u with sources := v.sources } ∧ (∀ n, n ≠ e.number → v.sources.get n = u.sources.get n) ∧
    ((u.sources.get e.number).enable = false → v = u) ∧
    ∀ i, (u.sources.get e.number).enable = true → m.getLast? = some i →
      v.sources.get e.number = { u.sources.get e.number with pending := true, detail := BitVec.ofNat 16 i } := by
  induction m using List.reverseRecOn with
  | nil => exact ⟨rfl, fun _ _ => rfl, fun _ => rfl, fun i _ h => by simp at h⟩
  | append_singleton m x ih =>
    dsimp only at ih ⊢
    rw [List.foldl_append]
    generalize hv : m.foldl (fun (u : EventUnit) (i : SlotNo) => u.record e i) u = v at *
    obtain ⟨h1, h2, h3, h4⟩ := ih
    simp only [List.foldl_cons, List.foldl_nil]
    have hen : (v.sources.get e.number).enable = (u.sources.get e.number).enable := by
      rw [← hv]; clear * -
      induction m generalizing u with
      | nil => rfl
      | cons y m ih => rw [List.foldl_cons, ih, record_enable]
    refine ⟨?_, ?_, ?_, ?_⟩
    · unfold EventUnit.record; dsimp only; split
      · rw [h1]
      · exact h1
    · intro n hn; rw [← h2 n hn]; unfold EventUnit.record; dsimp only; split
      · rw [get_put, if_neg (Ne.symm hn)]
      · rfl
    · intro h; unfold EventUnit.record; dsimp only; rw [hen, h]; exact h3 h
    · intro i h hl
      rw [List.getLast?_append] at hl; simp at hl; subst hl
      unfold EventUnit.record; dsimp only; rw [if_pos (hen.trans h), get_put, if_pos rfl]
      by_cases hm : m = []
      · subst hm; rw [← hv]; rfl
      · obtain ⟨y, hy⟩ := (⟨m.getLast hm, List.getLast?_eq_some_getLast hm⟩ : ∃ y, m.getLast? = some y)
        rw [h4 y h hy]

end Sys2Proof.Machine
end

