-- ==== Sys2Proof/Tests/Slice0.lean ====
section
/-! SUPPORT. Tests: the well-formedness checks, the manual's worked figures, and witnesses that the hypotheses of the
statements are met. -/

namespace Sys2Proof.Tests

/-! One test after the other: side by side, each would hold a thread while it waits for the kernel. -/
set_option Elab.async false

open Sys2Proof.Machine

/-! ## Well-formedness: each check refuses an ill-formed command -/

theorem test_wf_registerWrite_a : (Instr.registerWrite .a 0x2F 1).wellFormed = false := by decide
theorem test_wf_registerWrite_a_event : (Instr.registerWrite .a 0x7B 1).wellFormed = false := by decide
theorem test_wf_registerWrite_b : (Instr.registerWrite .b 0x52 1).wellFormed = false := by decide
theorem test_wf_recordWrite_below : (Instr.recordWrite 0x61 1).wellFormed = false := by decide
theorem test_wf_recordWrite_above : (Instr.recordWrite 0x6C 1).wellFormed = false := by decide
theorem test_wf_enableWrite : (Instr.enableWrite 0x72 1).wellFormed = false := by decide
theorem test_wf_maskWrite : (Instr.maskWrite 0x70 1).wellFormed = false := by decide
theorem test_wf_readSelector : (Instr.readSelector 0x04).wellFormed = false := by decide
theorem test_wf_writeSelector : (Instr.writeSelector 0x84).wellFormed = false := by decide
theorem test_wf_accepts : (Instr.registerWrite .a 0x10 1).wellFormed = true ∧
    (Instr.registerWrite .b 0x7B 1).wellFormed = true ∧ (Instr.recordWrite 0x62 1).wellFormed = true ∧
    (Instr.enableWrite 0x71 1).wellFormed = true ∧ (Instr.maskWrite 0x73 1).wellFormed = true ∧
    (Instr.readSelector 0x84).wellFormed = true ∧ (Instr.writeSelector 0x04).wellFormed = true := by decide

/-! ## Small states -/

/-- A clock in RUN at a minute, 30 s after its boundary reference. -/
def runClock (m : MinuteStamp) : Clock :=
  { Clock.reset with
    state := .run, position := m, calendarSet := true, saved := some m, supervision := some 65, reference := some 0 }

/-- A running part at a minute. -/
def running (m : MinuteStamp) : State := { State.reset with now := 30, clock := runClock m }

/-- A running part with the sides of the engine, in the middle of day 151 of 2035. -/
def noon : State := running ⟨2035, 151, 1000⟩

/-- A request with no arguments but those given. -/
def ask (c : RequestCode) (target : Nat) (args : List Word32) : Request :=
  { code := c.byte, requestedLevel := 0, level := 0, target := target, stack := 0, substance := 0, edition := 0,
    expected := none, args := tabulate (fun i => args.getD i.1 0) }

/-- The state with a request waiting at port B. -/
def asking (r : Request) (s : State) : State :=
  s.setCommon .b { s.common .b with area := { RequestArea.reset with state := .pending, latched := some r } }

/-- A DRAFT account of stack 3, substance 2 with a source channel. -/
def draftOf (source : Option ChannelNo) : Account :=
  { Account.free with state := .draft, key := ⟨3, 2, 1⟩, source := source }

/-- An ACTIVE account on channel 5 since the start of 2035. -/
def activeAccount : Account :=
  { draftOf (some 5) with state := .active, activatedAt := some ⟨2035, 1, 0⟩, current := some (.fresh 151 0) }

/-- Channel 5 configured for stack 3, substance 2. -/
def idleChannel : Channel :=
  { Channel.unused with state := .idle, stack := 3, substance := 2, low := 0, high := 5000 }

/-- Slot 7 with an account, channel 5 IDLE with a link. -/
def plant (a : Account) (link : Option SlotNo) : State :=
  (noon.setAccount 7 a).setChannel 5 { idleChannel with link := link }

/-- An OPEN episode. -/
def openEp (number : Nat) (subject : Subject) (acknowledged : Bool) : Episode :=
  { number := number, subject := subject, start := ⟨2035, 151, 30⟩, ended := none, length := 2, peak := some 700,
    acknowledged := acknowledged, cause := none }

/-- The state with a queue. -/
def withQueue (q : List Entry) (s : State) : State := { s with queue := q }

/-- A STACK entry of stack 3. -/
def stackEntryOf (abnormal : Nat) : StackEntry := ⟨3, ⟨2035, 151, 33⟩, 30, abnormal⟩

/-- A RESULT entry of slot 7. -/
def resultOf (cls : HalfHourClass) (abnormal internal : Bool) : ResultEntry :=
  ⟨7, ⟨2035, 151, 33⟩, cls, abnormal, internal⟩

/-- The state with a write frame of port A at a location. -/
def writingA (loc : Loc) (s : State) : State :=
  { s with portA := { s.portA with csnLow := true, frame := some (.data false loc), miso := some 0 } }

/-- The state with a read frame of port A at a location. -/
def readingA (loc : Loc) (s : State) : State :=
  { s with portA := { s.portA with csnLow := true, frame := some (.data true loc), miso := some 0 } }

/-- The state with port B in the VALUE phase at a location. -/
def writingB (loc : Loc) (s : State) : State := { s with portB := { s.portB with phase := .value, pointer := loc } }

/-- Port B's request block with a code, a control byte and zeros. -/
def block (code control : Byte) : Vector Byte 31 := put (put (Vector.replicate 31 0) 0 code) 1 control

/-- Port B about to write GO with a block and an area state. -/
def going (code control : Byte) (k : AreaState) : State :=
  (writingB 0x2F noon).setCommon .b
    { PortCommon.reset with block := block code control, area := { RequestArea.reset with state := k } }

/-! ## Figures of the manual -/

/-- 05, worked example: normalised values 120, 127 and 123. -/
theorem test_normalised_values :
    roundDiv (120 * 1000) 1000 = 120 ∧ roundDiv (95 * 1000) 750 = 127 ∧ roundDiv (143 * 1000) 1160 = 123 := by decide

/-- 05 R90: a half away from zero. -/
theorem test_round_half : roundDiv 5 2 = 3 ∧ roundDiv (-5) 2 = -3 ∧ roundDiv 7 3 = 2 := by decide

/-- 05, worked example: the average of 2,954 over 24 minutes is 123, and 20 of them are enough. -/
theorem test_half_hour_class :
    halfHourClass 20 { Accumulator.empty with operating := 30, valid := 24, sum := 2954, missing := 2 } = .valid 123 ∧
    halfHourClass 25 { Accumulator.empty with operating := 30, valid := 24, sum := 2954 } = .invalid ∧
    halfHourClass 20 .empty = .excluded := by decide

/-- 04 R68: 2100 is no leap year, 2000 is. -/
theorem test_days_in_year : daysInYear 2100 = 365 ∧ daysInYear 2000 = 366 ∧ daysInYear 2035 = 365 := by decide

/-- 04 R68: the minute after the last of a year. -/
theorem test_next_minute : (⟨2035, 365, 1439⟩ : MinuteStamp).next = ⟨2036, 1, 0⟩ := by decide

/-- 12 R185: minute 1000 of day 151 of 2035. -/
theorem test_stamp_word : (⟨2035, 151, 1000⟩ : MinuteStamp).word = 0x0234BBE8 := by decide

/-- 12 R186: the lengths of the four snapshots. -/
theorem test_snapshot_lengths :
    (Snapshot.account ⟨7, activeAccount, some 5, 0, none⟩).bytes.length = 151 ∧
    (Snapshot.channel ⟨5, idleChannel, 0, none⟩).bytes.length = 18 ∧
    (Snapshot.stack ⟨3, .reset, false, .reset⟩).bytes.length = 39 ∧
    (Snapshot.episode ⟨openEp 1 (.exceedance 7) false, 0, 1, 2, .account ⟨3, 2, 1⟩ .active⟩).bytes.length = 31 := by
  decide +kernel

/-- 10 R166: a code of the table and one that is not. -/
theorem test_request_codes : RequestCode.ofByte 0x2C = some .find ∧ RequestCode.ofByte 0x0B = none := by decide

/-- 12 R185: an argument at 0x80000000 is absent. -/
theorem test_argument_forms : argValue 0x80000000 = none ∧ argValue 0xFFFFFFFF = some (-1) := by decide

/-- 08 R140: the number after 65535 is 1, and a held number is passed over. -/
theorem test_free_number : freeNumber [65535, 1] 31 65535 = 2 ∧ freeNumber [] 31 9 = 9 := by decide

/-- 11 R178: source 6 with base 10 answers 0xA6. -/
theorem test_vector_byte :
    ({ EventUnit.reset with
        control := 0x0A
        sources := put EventUnit.reset.sources 6 ⟨true, true, false, false, 90⟩ } : EventUnit).acknowledge.1 = 0xA6 := by
  decide +kernel

/-- 12 R187: one byte of a posted value is replaced. -/
theorem test_record_byte :
    (PostingSlot.reset.writeByte 0x69 0x12).value = 0x001200 ∧ (PostingSlot.reset.writeByte 0x62 0xF3).year = 0x00F3 := by
  decide

/-- 12 R183: a frame stays at 0x53 and 0x7F and moves on elsewhere. -/
theorem test_next_location : nextLoc 0x53 = 0x53 ∧ nextLoc 0x7F = 0x7F ∧ nextLoc 0x6C = 0x6D := by decide

/-! ## Single steps -/

/-- Whether an answer is a next state with a property. -/
def leadsTo (o : Answer) (p : State → Bool) : Bool :=
  match o with
  | .next t => p t
  | .fault _ => false
  | .refused _ => false

theorem test_step_idle : leadsTo (step State.reset) (· == { State.reset with now := 1 }) = true := by decide +kernel

theorem test_step_front :
    leadsTo (step { State.reset with pending := [.frameStart] })
      (fun t => t.portA.frame == some .header && t.pending == []) = true := by decide +kernel

theorem test_minpPulse :
    leadsTo (exec .minpPulse noon) (fun t =>
      t.clock.position == ⟨2035, 151, 1001⟩ && t.clock.inGrace == some ⟨⟨2035, 151, 1000⟩, false⟩) = true := by
  decide +kernel

theorem test_createAccount :
    leadsTo (exec .createAccount (asking { ask .createAccount 0 [] with stack := 3, substance := 2, edition := 9 } noon))
      (fun t => (t.account 0).state == .draft && (t.account 0).key == ⟨3, 2, 9⟩ &&
        t.portB.common.area.response.outcome == some .done) = true := by decide +kernel

theorem test_resultAbsorption_without_side :
    leadsTo (exec .resultAbsorption (withQueue [.result (resultOf .invalid false true), .yearEnd 2034] noon))
      (fun t => t.queue == [.yearEnd 2034] && (t.account 7) == .free && t.inFlight == some .entry) = true := by
  decide +kernel

/-- 10 R170: a GO of port A at an idle engine is in hand when port B's GO arrives, and the engine completes it first. -/
theorem test_go_a_before_b :
    let s := going 0x2C 0 .idle;
    let t := (writingA 0x2F s).setCommon .a { PortCommon.reset with block := block 0x2D 0 };
    leadsTo (exec (.go .a 0) t) (fun u => u.inFlight == some (.request .a) && leadsTo (exec (.go .b 0) u) (fun v =>
      leadsTo (exec .readAccount v) (fun w => w.portA.common.area.state == .done &&
        w.portB.common.area.state == .pending && w.inFlight == some (.request .b)))) = true := by decide +kernel

/-- 10 R173: a request in hand when the stop begins is completed. -/
theorem test_stop_completes_request :
    leadsTo (exec (.go .b 0) (going 0x2D 0 .idle)) (fun u => leadsTo (exec .supplyLow u) (fun v =>
      v.part == .stopping && v.clock.state == .stopped && v.portB.common.area.state == .done &&
        v.portB.common.area.response.outcome == some .done && v.inFlight == none)) = true := by decide +kernel

/-- 12 R182, R183: a read frame shifts the part's identification out at 0x00, and moves on. -/
theorem test_plain_byte_shifted :
    leadsTo (step (readingA 0x00 State.reset)) (fun t =>
      t.portA.miso == some 0x4A && t.portA.frame == some (.data true 0x01)) = true := by decide +kernel

/-- 09, worked example: FIND from slot 35 over slots 17, 40 and 70 of stack 2 with HELD closed sides. -/
theorem test_find_across_group :
    let closed : ClosedSide := ⟨2034, .empty, 0, ⟨true, true, true, true⟩⟩
    let held : Account := { Account.free with state := .lapsed, key := ⟨2, 1, 1⟩, closed := some closed }
    leadsTo (exec .find (asking { ask .find 0 [0, 1, 17, 35] with stack := 2 }
        (((noon.setAccount 17 held).setAccount 40 held).setAccount 70 held)))
      (fun t => t.portB.common.area.response.values.toList == [40, 70, 3, 1, 0x100, 0]) = true := by decide +kernel

/-- 09 step 2 of the worked sequence: MARK sets NOTE_1 beside GAP_CHARGED at requested level 2. -/
theorem test_mark_note :
    let a := { activeAccount with cfgRev := 7, current := some (.fresh 151 0x080) }
    leadsTo (exec .mark (asking { ask .mark 7 [0, 8, 0] with level := 2 } (plant a (some 7))))
      (fun t => t.portB.common.area.response.values.toList == [0x80, 8, 0x88, 0, 0, 0]) = true := by decide +kernel

/-- 07, worked example: a raw average of 640 with ci 8 counts above the short limit 600 and opens an episode. -/
theorem test_result_opens_episode :
    let a := { activeAccount with terms := ⟨some 600, some ⟨100, 30⟩, some 100, 8, 5, 10⟩ }
    leadsTo (exec .resultAbsorption (withQueue [.result (resultOf (.valid 640) false false)] (plant a (some 7))))
      (fun t => t.queue == [] && t.episodes.map (·.peak) == [some 632] &&
        (t.account 7).current.map (fun c => (c.day.hhOverShort, c.year.hhOverPct)) == some (1, 1)) = true := by
  decide +kernel

/-! ## The hypotheses of the statements are met

Each theorem shows, for the statement in its name, states and operands that meet its hypotheses, clause by clause. -/

/-- The last minute but one of the calendar. -/
def almostLast : State := running ⟨2199, 365, 1438⟩

/-- The state with a minute in grace. -/
def inGrace (s : State) : State :=
  { s with clock := { s.clock with inGrace := some ⟨⟨2035, 151, 999⟩, false⟩, graceTimer := some 40 } }

/-- The state with the grace setting at 0. -/
def noGrace (s : State) : State := { s with clock := { s.clock with graceSetting := 0 } }

/-- The state with another clock state. -/
def clockAt (k : ClockState) (s : State) : State := { s with clock := { s.clock with state := k } }

/-- The state with the debounce timer of stack 2 running. -/
def bouncing (s : State) : State :=
  { s with inputs := put s.inputs 2 { StackInput.reset with timer := some 30 }, feedLines := put s.feedLines 2 true }

/-- The state with the part in another phase. -/
def phaseAt (k : PartPhase) (s : State) : State := { s with part := k }

/-- A request naming slot 7 with arguments. -/
def ask7 (c : RequestCode) (args : List Word32) : Request := ask c 7 args

/-- The state of a plant with a request of slot 7 waiting. -/
def asked (c : RequestCode) (args : List Word32) (s : State) : State := asking (ask7 c args) s

/-- The absent indication. -/
def absent : Word32 := 0x80000000

theorem test_meets_EmptyQueueLetsTimePass :
    (State.reset.pending = [] ∧ State.reset.clock.graceTimer = none ∧ State.reset.clock.supervision = none ∧
      (∀ i, (State.reset.input i).timer = none) ∧ State.reset.portA.frame = none) ∧
    ((readingA 0x04 State.reset).portA.frame = some (.data true 0x04) ∧ (0x04 : Loc) ∈ effectLocs ∧
      (readingA 0x00 State.reset).portA.frame = some (.data true 0x00) ∧ (0x00 : Loc) ∉ effectLocs ∧
      (readingA 0x7E State.reset).portA.frame = some (.data true 0x7E) ∧ (0x7E : Loc) ∉ effectLocs) ∧
    (let s := { inGrace noon with now := 40 };
      s.pending = [] ∧ s.clock.state = .run ∧ s.clock.graceTimer = some 40 ∧ 40 ≤ s.now) ∧
    (let s := bouncing noon;
      s.pending = [] ∧ s.clock.graceTimer = none ∧ s.part ≠ .stopped ∧ (s.input 2).timer = some 30 ∧ 30 ≤ s.now ∧
        ∀ j, j < 2 → (s.input j).timer = none) ∧
    (let s := { noon with now := 65 };
      s.pending = [] ∧ s.clock.graceTimer = none ∧ (∀ i, (s.input i).timer = none) ∧ s.clock.state = .run ∧
        s.clock.supervision = some 65 ∧ 65 ≤ s.now) := by decide +kernel

/-- Nothing is in hand at any owner. -/
theorem noneInHand_of_fields {s : State} (he : inHand s .engine = none) (hm : s.monitorHand = none)
    (hc : s.clockHand = none) : NoneInHand s := by
  intro o; cases o
  · exact he
  · exact hm
  · exact hc

/-- With nothing in hand nothing comes before. -/
theorem noneAhead_of_noneInHand {s : State} (o : Owner) (h : NoneInHand s) : NoneAhead o s := by
  intro q _ p c r hp
  rw [h q] at hp
  cases hp

/-- What the owners have in hand obeys its law, owner by owner and port by port. -/
theorem handLaw_of_all {s : State}
    (h : [Owner.engine, .monitor, .clock].all (fun o => [Port.a, .b].all (fun p =>
        (inHand s o != some p || (waitingAt s o p).isSome && s.part == .running) &&
        (!(s.part == .running && inHand s o == none && (waitingAt s o p).isSome) ||
          o == .engine && s.inFlight == some .entry)) && (s.handOrder.contains o == (inHand s o).isSome)) = true)
    (he : s.inFlight = some .entry → s.queue ≠ []) (hn : s.inFlight = none → s.queue = [])
    (hs : s.part = .stopped → s.queue = []) (hd : s.handOrder.Nodup) : HandLaw s := by
  simp only [List.all_cons, List.all_nil, Bool.and_true, Bool.and_eq_true, bne_iff_ne, beq_iff_eq, Bool.or_eq_true,
    Bool.not_eq_true', Bool.and_eq_false_iff, ne_eq] at h
  refine ⟨?_, he, ?_, hn, hs, ?_, hd⟩
  · intro o p hp; cases o <;> cases p <;> simp_all
  · intro hr o p hp hw; cases o <;> cases p <;> simp_all
  · intro o; rw [← List.contains_iff_mem]; cases o <;> simp only [h]

/-- The test states have nothing in hand: a request that is taken from one is what its owner completes next, and a queue
head that is claimed is what the engine absorbs next. -/
theorem test_meets_Takes_Absorbs :
    (∀ s : State, inHand s .engine = none → s.monitorHand = none → s.clockHand = none →
      (∀ c p r, takenRequest s c = some (p, r) → Takes s c p r) ∧ ∀ e, claimedHead s = some e → Absorbs s e) ∧
    (∀ s ∈ [State.reset, noon, almostLast, running lastMinute, plant activeAccount (some 7), inGrace noon, noGrace noon,
        bouncing noon, clockAt .hold noon, phaseAt .stopping noon],
      inHand s .engine = none ∧ s.monitorHand = none ∧ s.clockHand = none) ∧
    (∀ s r q k, let t := withQueue q (clockAt k (asking r s));
      inHand t .engine = inHand s .engine ∧ t.monitorHand = s.monitorHand ∧ t.clockHand = s.clockHand) := by
  refine ⟨fun s he hm hc => ?_, by decide +kernel, fun s r q k => ⟨rfl, rfl, rfl⟩⟩
  have h := noneInHand_of_fields he hm hc
  exact ⟨fun c p r hr => ⟨hr, noneAhead_of_noneInHand _ h⟩, fun e hq => ⟨hq, noneAhead_of_noneInHand _ h⟩⟩

theorem test_meets_NoneInHand_and_HandLaw :
    NoneInHand noon ∧ NoneInHand almostLast ∧ NoneInHand (running lastMinute) ∧ NoneInHand (inGrace noon) ∧
    NoneInHand (bouncing noon) ∧ HandLaw noon ∧ HandLaw (inGrace noon) := by
  refine ⟨?_, ?_, ?_, ?_, ?_, ?_, ?_⟩
  iterate 5 exact noneInHand_of_fields rfl rfl rfl
  · exact handLaw_of_all (by decide +kernel) nofun (fun _ => rfl) nofun (by decide +kernel)
  · exact handLaw_of_all (by decide +kernel) nofun (fun _ => rfl) nofun (by decide +kernel)

theorem test_meets_NotEarly : NotEarly noon ∧ NotEarly almostLast ∧ NotEarly (running lastMinute) := by
  refine ⟨?_, ?_, ?_⟩ <;> · intro t h; cases h; decide

theorem test_meets_MinutePulseTakenBySource_boundary :
    (noon.clock.state = .run ∧ noon.clock.position ≠ lastMinute ∧ noon.clock.inGrace = none ∧ 0 < noon.clock.graceSetting) ∧
    almostLast.clock.position ≠ lastMinute ∧ (inGrace noon).clock.inGrace = some ⟨⟨2035, 151, 999⟩, false⟩ ∧
    (noGrace noon).clock.inGrace = none ∧ (noGrace noon).clock.graceSetting = 0 := by decide +kernel

theorem test_meets_MinutePulseTakenBySource_early :
    State.reset.clock.state ≠ .run ∧
    (let s := { noon with now := 29 };
      s.clock.state = .run ∧ s.clock.reference = some 0 ∧ s.now < 0 + 30 ∧ s.clock.source = .external) ∧
    (let s := { noon with now := 29, clock := { noon.clock with source := .internal } };
      s.clock.reference = some 0 ∧ s.now < 0 + 30 ∧ s.clock.source = .internal) := by decide +kernel

theorem test_meets_ClockTimersExpire_supervision :
    noon.clock.state = .run ∧ noon.clock.supervision = some 65 ∧ noon.clock.inGrace = none ∧
    noon.clock.position ≠ lastMinute ∧ 0 < noon.clock.graceSetting ∧
    ((noGrace noon).clock.graceSetting = 0 ∧ (noGrace noon).clock.inGrace = none) ∧
    (inGrace noon).clock.inGrace = some ⟨⟨2035, 151, 999⟩, false⟩ := by decide +kernel

theorem test_meets_ClockTimersExpire_grace :
    (inGrace noon).clock.state = .run ∧ (inGrace noon).clock.inGrace = some ⟨⟨2035, 151, 999⟩, false⟩ ∧
    (inGrace noon).clock.graceTimer = some 40 := by decide +kernel

theorem test_meets_EndOfRangeHolds :
    (running lastMinute).clock.state = .run ∧ (running lastMinute).clock.position = lastMinute ∧
    (running lastMinute).clock.inGrace = none ∧ (running lastMinute).clock.supervision = some 65 := by decide +kernel

theorem test_meets_SetGraceStoresSetting :
    (let r := ask .setGrace 0 [30];
      takenRequest (asking r noon) .setGrace = some (.b, r) ∧ (30 : Nat) ≤ 30 ∧ r.arg 1 = some ((30 : Nat) : Int)) ∧
    (let r := ask .setGrace 0 [31];
      takenRequest (asking r noon) .setGrace = some (.b, r) ∧ ∀ g : Fin 31, r.arg 1 ≠ some (g.1 : Int)) := by
  decide +kernel

theorem test_meets_SetCalendarStatesPosition :
    let r := ask .setCalendar 0 [2199, 365, 1439];
    let bad := ask .setCalendar 0 [2199, 366, 1439];
    (takenRequest (asking r State.reset) .setCalendar = some (.b, r) ∧ r.arg 1 = some ((2199 : Nat) : Int) ∧
      r.arg 2 = some ((365 : Nat) : Int) ∧ r.arg 3 = some ((1439 : Nat) : Int) ∧ 365 ≤ daysInYear 2199 ∧
      (∀ i, ((asking r State.reset).account i).state = .free ∨ ((asking r State.reset).account i).state = .draft) ∧
      (asking r State.reset).queue = []) ∧
    (takenRequest (asking bad State.reset) .setCalendar = some (.b, bad) ∧ minuteArg bad = none) ∧
    (takenRequest (asking r (plant activeAccount (some 5))) .setCalendar = some (.b, r) ∧
      minuteArg r = some lastMinute ∧ ((asking r (plant activeAccount (some 5))).account 7).state = .active) ∧
    (let s := asking r (withQueue [.yearEnd 2034] noon);
      takenRequest s .setCalendar = some (.b, r) ∧ (∀ i, (s.account i).state = .free) ∧ s.queue ≠ []) := by
  decide +kernel

theorem test_meets_ResumeEntersRun :
    let r := ask .resume 0 [2035, 151, 1019];
    let s := asking r (clockAt .hold noon);
    takenRequest s .resume = some (.b, r) ∧ s.clock.state = .hold ∧ s.clock.rangeEnd = false ∧
    s.clock.saved = some ⟨2035, 151, 1000⟩ ∧ minuteArg r = some ⟨2035, 151, 1019⟩ ∧
    (⟨2035, 151, 1019⟩ : MinuteStamp).before ⟨2035, 151, 1000⟩ = false ∧
    (⟨2035, 151, 1019⟩ : MinuteStamp).halfHour.count - (⟨2035, 151, 1000⟩ : MinuteStamp).halfHour.count ≤ 65535 := by
  decide +kernel

theorem test_meets_ResumeEntersRun_refused :
    (let r := ask .resume 0 [2035, 151, 1019];
      takenRequest (asking r noon) .resume = some (.b, r) ∧ (asking r noon).clock.state ≠ .hold) ∧
    (let r := ask .resume 0 [2035, 0, 1019]; let s := asking r (clockAt .hold noon);
      takenRequest s .resume = some (.b, r) ∧ s.clock.state = .hold ∧ minuteArg r = none ∧
        { s with clock := { s.clock with rangeEnd := true } }.clock.rangeEnd = true) ∧
    (let r := ask .resume 0 [2035, 151, 999]; let s := asking r (clockAt .hold noon);
      takenRequest s .resume = some (.b, r) ∧ s.clock.saved = some ⟨2035, 151, 1000⟩ ∧
        minuteArg r = some ⟨2035, 151, 999⟩ ∧ (⟨2035, 151, 999⟩ : MinuteStamp).before ⟨2035, 151, 1000⟩ = true) ∧
    (let r := ask .resume 0 [2039, 60, 0]; minuteArg r = some ⟨2039, 60, 0⟩ ∧
      65535 < (⟨2039, 60, 0⟩ : MinuteStamp).halfHour.count - (⟨2035, 151, 1000⟩ : MinuteStamp).halfHour.count) := by
  decide +kernel

/-- A slot LOADED with a stamp, a value and a quality byte. -/
def loadedAt (minute : Word16) (value : BitVec 24) (quality : Byte) : PostingSlot :=
  { loaded := true, year := 2035, day := 151, minute := minute, value := value, quality := quality, code := .accepted }

/-- Channel 5 COLLECTING with a slot X, and stack 3 with frozen marks. -/
def collecting (x : PostingSlot) (fired : Bool) (oxygen : Option OxygenTerm) : State :=
  let s := noon.setChannel 5 { idleChannel with state := .collecting, oxygen := oxygen };
  { s with
    slots := put s.slots 5 ⟨x, .reset⟩
    inputs := put s.inputs 3 { StackInput.reset with frozen := some ⟨fired, false⟩ } }

/-- The same with an oxygen channel 6 that posts a value with a quality. -/
def oxygenAt (value : BitVec 24) (quality : Byte) : State :=
  let s := collecting (loadedAt 1000 95 0) true (some ⟨6, 1100⟩);
  let t := s.setChannel 6 { idleChannel with state := .collecting, substance := 15, high := 2100 };
  { t with slots := put t.slots 6 ⟨loadedAt 1000 value quality, .reset⟩ }

/-- An oxygen value of 1350. -/
def withOxygen : State := oxygenAt 1350 0

theorem test_meets_CollectionActsOnSlots :
    let m : MinuteStamp := ⟨2035, 151, 1000⟩;
    let p := fun s : State => (s.slotPair 5).get .x;
    (((collecting (loadedAt 1000 5000 0) true none).channel 5).state = .collecting ∧
      (p (collecting (loadedAt 1000 5000 0) true none)).loaded = true ∧
      (p (collecting (loadedAt 1000 5000 0) true none)).stamp = m ∧
      (p (collecting (loadedAt 1001 5000 0) true none)).stamp ≠ m) ∧
    (let s := (collecting (loadedAt 1000 5000 0) true none).setChannel 5 idleChannel;
      (s.channel 5).state ≠ .collecting ∧ (p s).loaded = true) ∧ (p noon).loaded = false := by decide +kernel

theorem test_meets_MinuteClassFollowsCases :
    let m : MinuteStamp := ⟨2035, 151, 1000⟩;
    (∀ fired, let s := collecting (loadedAt 1000 5000 0) fired none;
      (s.channel 5).state = .collecting ∧ (s.inputs.get (s.channel 5).stack).frozen = some ⟨fired, false⟩) ∧
    (∀ n, ((collecting .reset true none).slotPair 5).get n = .reset) ∧
    (∀ v : Fin 2, ∀ q : Fin 4, let s := collecting (loadedAt 1000 (5000 + BitVec.ofNat 24 v) (BitVec.ofNat 8 q)) true none;
      ((s.slotPair 5).get .x).loaded = true ∧ ((s.slotPair 5).get .x).stamp = m ∧
        ((s.slotPair 5).get .y).loaded = false ∧ ((s.slotPair 5).get .x).qualityCode = q.1 ∧
        ((s.slotPair 5).get .x).value.toInt = 5000 + (v.1 : Int) ∧ (s.channel 5).high = 5000 ∧ (s.channel 5).oxygen = none) ∧
    ((withOxygen.channel 5).oxygen = some ⟨6, 1100⟩ ∧ (withOxygen.channel 6).stack = (withOxygen.channel 5).stack ∧
      (withOxygen.channel 6).state = .collecting ∧ (withOxygen.channel 6).high = 2100 ∧
      minuteClass withOxygen m 5 = .valid ∧ enteredValue withOxygen m 5 = 127) ∧
    ((∀ v : Fin 2, minuteClass (oxygenAt (1999 + BitVec.ofNat 24 v) 0) m 5 = (if v = 0 then .valid else .oxygen)) ∧
      minuteClass (oxygenAt 1350 1) m 5 = .oxygen ∧ minuteClass (oxygenAt 2101 0) m 5 = .oxygen ∧
      minuteClass (withOxygen.setChannel 6 { withOxygen.channel 6 with state := .idle }) m 5 = .oxygen) := by
  refine ⟨?_, ?_, ?_, ?_, ?_⟩
  · intro fired; cases fired <;> decide +kernel
  · intro n; cases n <;> decide +kernel
  all_goals decide +kernel

theorem test_meets_LoadedFor :
    LoadedFor withOxygen 5 ⟨2035, 151, 1000⟩ .x ∧ LoadedFor withOxygen 6 ⟨2035, 151, 1000⟩ .x ∧
    NoneLoadedFor noon 6 ⟨2035, 151, 1000⟩ ∧ NoneLoadedFor withOxygen 5 ⟨2035, 151, 1001⟩ := by
  refine ⟨?_, ?_, ?_, ?_⟩
  · unfold LoadedFor; decide +kernel
  · unfold LoadedFor; decide +kernel
  all_goals intro n; cases n <;> decide +kernel

/-- Collecting minute 1019 of channel 6 gives its raw average; the last minute of half-hour 33 closes it. -/
theorem test_meets_CollectionCountsMinute :
    ((withOxygen.channel 5).state = .collecting ∧ (noon.channel 5).state ≠ .collecting ∧ (noon.channel 5).link = none ∧
      ((plant activeAccount (some 7)).channel 5).state ≠ .collecting ∧
      ((plant activeAccount (some 7)).channel 5).link ≠ none) ∧
    (1019 % 30 = 29 ∧ 1000 % 30 ≠ 29 ∧
      (collectMinute ⟨2035, 151, 1019⟩ false withOxygen).queue.length = 4) ∧
    (minuteClass (collecting .reset true none) ⟨2035, 151, 1000⟩ 5 = .missing ∧
      ∀ d, minuteClass withOxygen ⟨2035, 151, 1000⟩ d = .missing → (withOxygen.channel d).state ≠ .collecting) ∧
    Nearest (95 * 1000) 750 127 ∧ Nearest (5 : Int) 2 3 ∧ Nearest (-5 : Int) 2 (-3) := by
  refine ⟨?_, ?_, ?_, ?_⟩
  · decide +kernel
  · decide +kernel
  · decide +kernel
  · unfold Nearest; decide

/-- A gap entry before half-hour 47 of day 151. -/
def gapBefore (count : Nat) : GapEntry := ⟨⟨2035, 151, 47 - count⟩, count, []⟩

/-- Every stack disabled: a batch holds only what half-hour 47 adds. -/
def allOff : State := { noon with inputs := Vector.replicate 4 { StackInput.reset with enable := false } }

/-- A gap entry of 65535 half-hours that ends before half-hour 47 of day 151 of 2035. -/
def longGap : GapEntry := ⟨⟨2031, 247, 32⟩, 65535, []⟩

theorem test_meets_HalfHourCloseOffersBatch :
    let h : HalfHourStamp := ⟨2035, 151, 47⟩;
    let full := fun g => withQueue (List.replicate 127 (.yearEnd 2034) ++ [.gap g]) allOff;
    let noRoom := fun s : State => batch s h ≠ [] ∧ 128 - s.queue.length < (batch s h).length + 1;
    batch allOff ⟨2035, 151, 33⟩ = [] ∧
    (batch allOff h ≠ [] ∧
      (batch allOff h).length + 1 ≤ 128 - (withQueue (List.replicate 126 (.yearEnd 2034)) allOff).queue.length) ∧
    (noRoom (full (gapBefore 2)) ∧ (full (gapBefore 2)).queue.getLast? = some (.gap (gapBefore 2)) ∧
      (gapBefore 2).start.count + (gapBefore 2).count = h.count ∧ (gapBefore 2).count < 65535) ∧
    (let s := withQueue (List.replicate 126 (.yearEnd 2034) ++ [.gap longGap]) allOff;
      noRoom s ∧ s.queue.length < 128 ∧ s.queue.getLast? = some (.gap longGap) ∧ 65535 ≤ longGap.count ∧
        longGap.start.count + longGap.count = h.count) ∧
    (let s := withQueue (List.replicate 127 (.yearEnd 2034)) allOff;
      noRoom s ∧ s.queue.length < 128 ∧ s.queue.getLast? = some (.yearEnd 2034)) ∧
    (let g : GapEntry := ⟨⟨2035, 151, 40⟩, 2, []⟩;
      noRoom (full g) ∧ 128 ≤ (full g).queue.length ∧ g.start.count + g.count < h.count) := by decide +kernel

theorem test_meets_BatchHoldsHalfHour :
    let s := { plant activeAccount (some 7) with
      accumulators := put noon.accumulators 5 { Accumulator.empty with operating := 30, valid := 24, sum := 2954 } };
    batch s ⟨2035, 365, 47⟩ =
      [.result ⟨7, ⟨2035, 365, 47⟩, .valid 123, false, false⟩, .stack ⟨0, ⟨2035, 365, 47⟩, 0, 0⟩,
        .stack ⟨1, ⟨2035, 365, 47⟩, 0, 0⟩, .stack ⟨2, ⟨2035, 365, 47⟩, 0, 0⟩, .stack ⟨3, ⟨2035, 365, 47⟩, 0, 0⟩,
        .dayEnd 2035 365, .yearEnd 2035] ∧
    (s.accumulators.get 5).operating ≠ 0 ∧ (s.channel 5).minMinutes ≤ (s.accumulators.get 5).valid ∧
    (s.accumulators.get 6).operating = 0 ∧
    ({ Accumulator.empty with operating := 30, valid := 19 } : Accumulator).valid < (s.channel 5).minMinutes := by
  decide +kernel

theorem test_meets_FeedLineIsDebounced_line :
    (noon.feedLine 3 = false ∧ noon.feedLine 3 ≠ true ∧ (noon.input 3).enable = true ∧ noon.part ≠ .stopped) ∧
    ((noon.setInput 3 { StackInput.reset with enable := false }).feedLine 3 ≠ true ∧
      ((noon.setInput 3 { StackInput.reset with enable := false }).input 3).enable = false) := by decide +kernel

theorem test_meets_FeedLineIsDebounced_timer :
    (bouncing noon).part ≠ .stopped ∧ ((bouncing noon).input 2).timer = some 30 := by decide +kernel

theorem test_meets_StackMonitorRequests :
    let feed := ask .setFeedInput 3 [1, 15];
    let declare_ := ask .declareAbnormal 3 [];
    let end_ := ask .endAbnormal 3 [];
    let firing := noon.setInput 3 { StackInput.reset with takenOn := true, state := .firing };
    let abnormal := noon.setInput 3
      { StackInput.reset with takenOn := true, state := .abnormal, declaration := some ⟨2035, 151, 990⟩ };
    (takenRequest (asking feed noon) .setFeedInput = some (.b, feed) ∧ feed.target = 3 ∧
      feed.arg 1 = some (true.toNat : Int) ∧ feed.arg 2 = some ((15 : Nat) : Int)) ∧
    (takenRequest (asking declare_ firing) .declareAbnormal = some (.b, declare_) ∧ declare_.target = 3 ∧
      ((asking declare_ firing).input 3).state = .firing ∧
      takenRequest (asking declare_ noon) .declareAbnormal = some (.b, declare_) ∧
      ((asking declare_ noon).input 3).state ≠ .firing) ∧
    (takenRequest (asking end_ abnormal) .endAbnormal = some (.b, end_) ∧ end_.target = 3 ∧
      ((asking end_ abnormal).input 3).state = .abnormal ∧
      ((asking end_ abnormal).input 3).declaration = some ⟨2035, 151, 990⟩ ∧
      takenRequest (asking end_ firing) .endAbnormal = some (.b, end_) ∧
      ((asking end_ firing).input 3).state ≠ .abnormal) := by decide +kernel

/-- The state with a request of port A waiting too. -/
def askingA (r : Request) (s : State) : State :=
  s.setCommon .a { s.common .a with area := { RequestArea.reset with state := .pending, latched := some r } }

/-- ACTIVATE of port A in hand at the engine, and SET_CALENDAR of port B at the Period Clock behind it. -/
def crossing : State :=
  { askingA (ask7 .activate []) (asking (ask .setCalendar 0 [2035, 151, 1000]) (plant (draftOf (some 5)) none)) with
    inFlight := some (.request .a), clockHand := some .b, handOrder := [.engine, .clock] }

/-- SET_GRACE of port A in hand at the Period Clock, DECLARE_ABNORMAL of port B at the Stack Monitor behind it, and a STACK
entry in flight. -/
def absorbingBehind : State :=
  { askingA (ask .setGrace 0 [30]) (asking (ask .declareAbnormal 3 []) (withQueue [.stack (stackEntryOf 1)] noon)) with
    inFlight := some .entry, monitorHand := some .b, clockHand := some .a, handOrder := [.clock, .monitor] }

theorem test_meets_StopBeginsAndEnds :
    (crossing.part = .running ∧ crossing.handOrder = .engine :: [.clock] ∧ inHand crossing .engine = some .a ∧
      waitingAt crossing .engine .a = some (ask7 .activate []) ∧ (ask7 .activate []).code = RequestCode.activate.byte) ∧
    (absorbingBehind.handOrder = .clock :: [.monitor] ∧ inHand absorbingBehind .clock = some .a ∧
      waitingAt absorbingBehind .clock .a = some (ask .setGrace 0 [30])) ∧
    ((inGrace noon).part = .running ∧ (inGrace noon).clock.state = .run ∧
      (inGrace noon).clock.inGrace = some ⟨⟨2035, 151, 999⟩, false⟩) ∧
    (noon.part = .running ∧ noon.clock.state = .run ∧ noon.clock.inGrace = none) ∧
    (State.reset.part = .running ∧ State.reset.clock.state = .unset) ∧
    ((phaseAt .stopping noon).part ≠ .running ∧ (phaseAt .stopping noon).queue = []) ∧
    (withQueue [.yearEnd 2034] (phaseAt .stopping noon)).queue ≠ [] := by decide +kernel

/-- Two requests in hand that cross owners, and a crossing one behind one that does not, with an entry in flight. -/
theorem test_meets_RequestsInHandComeFirst :
    (crossing.handOrder = [] ++ .engine :: [.clock] ∧ inHand crossing .engine = some .a ∧
      waitingAt crossing .engine .a = some (ask7 .activate []) ∧ RequestCode.activate.crossesOwners = true ∧
      RequestCode.setCalendar.owner = .clock ∧ inHand crossing .clock = some .b ∧
      takenRequest crossing .setCalendar = some (.b, ask .setCalendar 0 [2035, 151, 1000])) ∧
    (absorbingBehind.handOrder = [.clock] ++ .monitor :: [] ∧ inHand absorbingBehind .monitor = some .b ∧
      waitingAt absorbingBehind .monitor .b = some (ask .declareAbnormal 3 []) ∧
      waitingAt absorbingBehind .clock .a = some (ask .setGrace 0 [30]) ∧
      RequestCode.declareAbnormal.crossesOwners = true ∧ RequestCode.setGrace.crossesOwners = false ∧
      absorbingBehind.inFlight = some .entry ∧
      absorbingBehind.queue.head? = some (.stack (stackEntryOf 1))) ∧
    HandLaw crossing ∧ HandLaw absorbingBehind := by
  refine ⟨by decide +kernel, by decide +kernel, ?_, ?_⟩
  · exact handLaw_of_all (by decide +kernel) nofun (fun _ => rfl) nofun (by decide +kernel)
  · exact handLaw_of_all (by decide +kernel) (fun _ => List.cons_ne_nil _ _) nofun nofun (by decide +kernel)

theorem test_meets_RestartResetsVolatileState :
    let s := phaseAt .stopped noon;
    s.part = .stopped ∧ s.supplyGood = true ∧ s.rstnHigh = true ∧ noon.part ≠ .stopped := by decide +kernel

/-- Slot 7's terms with a short limit. -/
def limited : Account := { activeAccount with terms := ⟨some 600, some ⟨100, 30⟩, some 100, 8, 5, 10⟩ }

/-- A plant with a RESULT entry at the head. -/
def absorbing (e : ResultEntry) (episodes : List Episode) : State :=
  { withQueue [.result e] (plant limited (some 7)) with episodes := episodes }

/-- Thirty-two ENDED episodes of stack 0. -/
def fullList : List Episode :=
  (List.range 32).map (fun n =>
    { openEp (n + 1) (.abnormalOperation 0) false with ended := some ⟨2035, 151, 32⟩ })

theorem test_meets_ValidResultAbsorbed :
    let e := fun raw : Int => resultOf (.valid raw) false true;
    let open_ := openEp 4 (.exceedance 7) false;
    (claimedHead (absorbing (e 609) []) = some (.result (e 609)) ∧
      ((absorbing (e 609) []).account 7).current = some (.fresh 151 0) ∧
      ((absorbing (e 609) []).account 7).terms.short = some 600 ∧ 600 < (609 - 8 : Int).toNat ∧
      openEpisode (absorbing (e 609) []) (.exceedance 7) = none ∧ (absorbing (e 609) []).episodes.length < 32) ∧
    ((600 : Nat) < (609 - 8 : Int).toNat ∧ (openEpisode (absorbing (e 609) [open_]) (.exceedance 7)).isSome) ∧
    ((absorbing (e 608) []).account 7).terms.short = some 600 ∧ (608 - 8 : Int).toNat ≤ 600 ∧
    (absorbing (e 608) [open_]).episodes.filter (fun x => x.isOpen && x.subject == .exceedance 7) = [open_] ∧
    (32 ≤ (absorbing (e 609) fullList).episodes.length ∧
      openEpisode (absorbing (e 609) fullList) (.exceedance 7) = none) := by decide +kernel

theorem test_meets_OtherResultAbsorbed :
    (let e := resultOf (.valid 100) true false;
      claimedHead (absorbing e []) = some (.result e) ∧ e.cls = .valid 100 ∧ e.abnormal = true ∧
        ((absorbing e []).account 7).current = some (.fresh 151 0)) ∧
    (let e := resultOf .invalid false true;
      claimedHead (absorbing e []) = some (.result e) ∧ e.cls = .invalid) ∧
    (let e := resultOf .excluded false false;
      claimedHead (absorbing e []) = some (.result e) ∧ openEpisode (absorbing e []) (.exceedance 7) = none ∧
        (absorbing e [openEp 4 (.exceedance 7) false]).episodes.filter
          (fun x => x.isOpen && x.subject == .exceedance 7) = [openEp 4 (.exceedance 7) false]) ∧
    (let s := withQueue [.result (resultOf .invalid false false)] noon;
      claimedHead s = some (.result (resultOf .invalid false false)) ∧ (s.account 7).current = none) := by
  decide +kernel

theorem test_meets_StackEntryAbsorbed :
    let s := fun n episodes => { withQueue [.stack (stackEntryOf n)] noon with episodes := episodes };
    (claimedHead (s 1 []) = some (.stack (stackEntryOf 1)) ∧ 1 ≤ (stackEntryOf 1).abnormal ∧
      openEpisode (s 1 []) (.abnormalOperation 3) = none ∧ (s 1 []).episodes.length < 32) ∧
    (openEpisode (s 1 [openEp 9 (.abnormalOperation 3) false]) (.abnormalOperation 3)).isSome ∧
    (openEpisode (s 1 fullList) (.abnormalOperation 3) = none ∧ 32 ≤ (s 1 fullList).episodes.length) ∧
    (claimedHead (s 0 []) = some (.stack (stackEntryOf 0)) ∧ (stackEntryOf 0).abnormal = 0) := by decide +kernel

theorem test_meets_StopDemandFollowsEvaluation :
    let r := fun run year : Nat => { StackAllowance.reset with runHh := run, yearAbnHh := year };
    ((r 8 0).episodeAllowance ≤ (r 8 0).runHh) ∧
    ((r 7 120).runHh < (r 7 120).episodeAllowance ∧ (r 7 120).annualAllowance ≤ (r 7 120).yearAbnHh) ∧
    ((r 7 119).runHh < (r 7 119).episodeAllowance ∧ (r 7 119).yearAbnHh < (r 7 119).annualAllowance) ∧
    (r 7 119).demand = .released ∧ { r 7 119 with demand := .annual }.demand ≠ .released := by decide

theorem test_meets_DayEndClosesAccounts :
    let s := withQueue [.dayEnd 2035 151] (plant activeAccount (some 7));
    let frozen : Account := { activeAccount with state := .frozen, frozenAt := some ⟨2035, 150, 3⟩ };
    let used : CurrentSide := { CurrentSide.fresh 151 0 with
      day := { DayPart.empty 151 with hhInvalid := 6 }, year := { YearPart.empty with daysInvalid := 10 } };
    (claimedHead s = some (.dayEnd 2035 151) ∧ (s.account 7).current = some (.fresh 151 0) ∧
      (s.account 7).state = .active ∧ (s.account 7).activatedAt = some ⟨2035, 1, 0⟩ ∧
      claimedHead (withQueue [.dayEnd 2034 365] (plant activeAccount (some 7))) = some (.dayEnd 2034 365)) ∧
    ((s.account 8).state ≠ .active ∧ (s.account 8).state ≠ .frozen) ∧
    (frozen.state = .frozen ∧ (DayPart.empty 151).isEmpty = true ∧ used.day.isEmpty = false) ∧
    (dayOutcome frozen.terms used.day = .invalid ∧ used.year.daysInvalid = frozen.terms.allowance) ∧
    daysInYear 2034 = 365 ∧ daysInYear 2035 ≠ 151 := by decide +kernel

theorem test_meets_DayOutcomeAndVerdict :
    let t := Terms.default;
    dayOutcome t ⟨151, 0, 0, 48, 0, 0, 0, 0⟩ = .excluded ∧ dayOutcome t ⟨151, 42, 6, 0, 0, 0, 0, 0⟩ = .invalid ∧
    dayOutcome t ⟨151, 0, 5, 40, 3, 0, 0, 0⟩ = .abnormalOnly ∧ dayOutcome t ⟨151, 43, 5, 0, 0, 0, 65, 0⟩ = .valid ∧
    dayAverage ⟨151, 43, 5, 0, 0, 0, 65, 0⟩ = 2 := by decide +kernel

theorem test_meets_YearEndClosesAccounts :
    let closed : ClosedSide := ⟨2034, .empty, 0, ⟨true, true, true, true⟩⟩;
    let s := { withQueue [.yearEnd 2035] (plant { activeAccount with closed := some closed } (some 7)) with
      episodes := [openEp 4 (.exceedance 7) true, openEp 5 (.abnormalOperation 3) false] };
    claimedHead s = some (.yearEnd 2035) ∧ (s.account 7).current = some (.fresh 151 0) ∧
    (s.account 7).closed = some closed ∧ (s.account 7).activatedAt = some ⟨2035, 1, 0⟩ ∧ (s.account 7).state = .active ∧
    ({ activeAccount with state := .frozen, frozenAt := some ⟨2035, 150, 3⟩ } : Account).state = .frozen ∧
    ((s.account 8).state ≠ .active ∧ (s.account 8).state ≠ .frozen) ∧
    claimedHead (withQueue [.yearEnd 2034] (plant activeAccount (some 7))) = some (.yearEnd 2034) ∧
    leadsTo (exec .yearEndAbsorption s) (fun t =>
      t.episodes == [openEp 5 (.abnormalOperation 3) false] &&
      (t.account 7).closed.map (fun c => (c.year.episodesEnded, c.year.longestEpisode, c.yearNo)) == some (1, 2, 2035))
      = true := by decide +kernel

theorem test_meets_GapWalkCharges :
    let g : GapEntry := ⟨⟨2035, 151, 40⟩, 7, [7]⟩;
    let s := withQueue [.gap g] (plant activeAccount (some 7));
    claimedHead s = some (.gap g) ∧ g.charged.Nodup ∧ 1 ≤ g.count ∧ g.start.hh + g.count ≤ 47 ∧ 7 ∈ g.charged ∧
    (s.account 7).current = some (.fresh 151 0) ∧ (s.account 7).state = .active ∧ 8 ∉ g.charged := by decide +kernel

theorem test_meets_GapWalkMakesCloses :
    let g : GapEntry := ⟨⟨2035, 365, 47⟩, 1, [7]⟩;
    let s := withQueue [.gap g] (plant activeAccount (some 7));
    claimedHead s = some (.gap g) ∧ g.charged.Nodup ∧ (s.account 7).state = .active ∧ g.start.hh = 47 ∧
    g.start.day = daysInYear g.start.year ∧ (364 : Nat) < daysInYear 2035 ∧
    leadsTo (exec .gapWalk s) (fun t => t.queue == [] &&
      (t.account 7).closed.map (fun c => (c.yearNo, c.year.hhGap, c.year.daysInvalid)) == some (2035, 1, 1)) = true := by
  decide +kernel

theorem test_meets_OwnersChooseInOrder :
    let r := ask .find 0 [];
    let atA := noon.setCommon .a
      { PortCommon.reset with area := { RequestArea.reset with state := .pending, latched := some r } };
    (noon.inFlight = none ∧ noon.part = .running ∧ noon.lastClaim ≠ .entry ∧
      (withQueue [.yearEnd 2034] noon).queue ≠ [] ∧ waitingAt noon .engine .a = none ∧ waitingAt noon .engine .b = none) ∧
    ((waitingAt (asking r noon) .engine .b).isSome ∧ (asking r noon).queue = [] ∧
      { asking r noon with lastClaim := .entry }.lastClaim = .entry) ∧
    ((waitingAt atA .engine .a).isSome ∧ waitingAt atA .engine .b = none) ∧
    ((withQueue [.yearEnd 2034] (phaseAt .stopping noon)).part = .stopping ∧
      (withQueue [.yearEnd 2034] (phaseAt .stopping noon)).queue ≠ []) ∧
    ((waitingAt (asking (ask .setGrace 0 []) noon) .clock .b).isSome ∧ Owner.clock ≠ .engine ∧
      inHand noon .clock = none ∧ inHand noon .monitor = none) ∧
    ({ atA with inFlight := some (.request .a) }.inFlight = some (.request .a) ∧
      inHand { atA with clockHand := some .a } .clock = some .a) ∧
    takenRequest (asking r noon) .find = some (.b, r) := by decide +kernel

theorem test_meets_Writes :
    Writes .b 0x2F (going 0x2C 0 .idle) ∧ Writes .a 0x2F (writingA 0x2F noon) ∧ Writes .a 0x52 (writingA 0x52 noon) ∧
    Writes .b 0x52 (writingB 0x52 noon) ∧ Writes .a 0x62 (writingA 0x62 noon) ∧ Writes .a 0x6B (writingA 0x6B noon) ∧
    Writes .a 0x6C (writingA 0x6C noon) ∧ Writes .a 0x70 (writingA 0x70 noon) ∧ Writes .a 0x73 (writingA 0x73 noon) ∧
    Writes .a 0x78 (writingA 0x78 noon) ∧ Writes .a 0x7B (writingA 0x7B noon) ∧ Writes .a 0x7D (writingA 0x7D noon) ∧
    Writes .a 0x7E (writingA 0x7E noon) ∧ Writes .b 0x10 (writingB 0x10 noon) ∧ Writes .a 0x2E (writingA 0x2E noon) :=
  ⟨⟨rfl, rfl, rfl⟩, rfl, rfl, ⟨rfl, rfl, rfl⟩, rfl, rfl, rfl, rfl, rfl, rfl, rfl, rfl, rfl, ⟨rfl, rfl, rfl⟩, rfl⟩

theorem test_meets_GoLatchesRequest :
    (noon.part = .running ∧ ((going 0x2C 0 .pending).common .b).area.state = .pending) ∧
    ((going 0x2C 2 .idle).part = .running ∧ ((going 0x2C 2 .idle).common .b).area.state ≠ .pending ∧
      RequestCode.ofByte (latch .b (block 0x2C 2)).code = some .find ∧ (latch .b (block 0x2C 2)).requestedLevel ≠ 3 ∧
      (latch .b (block 0x2C 2)).level ≤ RequestCode.find.requiredLevel) ∧
    RequestCode.ofByte (latch .b (block 0x0B 0)).code = none ∧ (latch .b (block 0x2C 3)).requestedLevel = 3 ∧
    (RequestCode.activate.requiredLevel < (latch .b (block 0x04 1)).level ∧ (latch .b (block 0x04 1)).requestedLevel ≠ 3) ∧
    ((0x32, .resume, .clock, 1) ∈ requestTable ∧ (∀ row ∈ requestTable, row.1 ≠ (0x0B : Byte).toNat)) ∧
    (phaseAt .stopping noon).part ≠ .running := by decide +kernel

theorem test_meets_CompletionFillsResponse :
    let r := ask .readAccount 128 [];
    takenRequest (asking r noon) .readAccount = some (.b, r) ∧
    performReadAccount r (asking r noon) = .refused .argument := by decide +kernel

theorem test_meets_CreateAccountFillsLowestFree :
    let r := { ask .createAccount 0 [] with stack := 3, substance := 14, edition := 255 };
    let bad := { ask .createAccount 0 [] with stack := 3, substance := 15, edition := 255 };
    let key : Key := ⟨3, 14, 255⟩;
    let used := noon.setAccount 9 { draftOf none with key := key };
    let full := { noon with accounts := Vector.replicate 128 (draftOf none) };
    (takenRequest (asking bad noon) .createAccount = some (.b, bad) ∧ 14 < bad.substance) ∧
    (takenRequest (asking r noon) .createAccount = some (.b, r) ∧ r.stack = key.stack.1 ∧ r.substance = key.substance.1 ∧
      r.edition = key.edition.1 ∧ r.substance ≤ 14) ∧
    (((asking r used).account 9).state ≠ .free ∧ ((asking r used).account 9).key = key) ∧
    ((∀ i, ((asking r full).account i).state ≠ .free → ((asking r full).account i).key ≠ key) ∧
      ∀ i, ((asking r full).account i).state ≠ .free) ∧
    ((∀ j, ((asking r noon).account j).state ≠ .free → ((asking r noon).account j).key ≠ key) ∧
      ((asking r noon).account 0).state = .free ∧ ∀ j, j < 0 → ((asking r noon).account j).state ≠ .free) := by
  decide +kernel

theorem test_meets_DraftRequests :
    let limits := ask7 .setLimits [268435455, 100, 1000, absent, 65535, 48 + 65536 * 366];
    let t : Terms := ⟨some 268435455, some ⟨100, 1000⟩, none, 65535, 48, 366⟩;
    let link := ask7 .linkSource [5];
    let clear := ask7 .linkSource [absent];
    let stale := { link with expected := some 1 };
    let s := plant (draftOf none) none;
    (takenRequest (asking limits s) .setLimits = some (.b, limits) ∧ limits.target = 7 ∧ limits.expected = none ∧
      (s.account 7).state = .draft ∧ limits.arg 1 = t.short.map Int.ofNat ∧
      limits.arg 2 = t.pct.map (fun l => Int.ofNat l.limit) ∧ limits.arg 3 = t.pct.map (fun l => Int.ofNat l.share) ∧
      limits.arg 4 = t.day.map Int.ofNat ∧ limits.arg 5 = some (t.ci : Int) ∧
      limits.word 6 = BitVec.ofNat 32 (t.maxInvalid + 65536 * t.allowance)) ∧
    (takenRequest (asking link s) .linkSource = some (.b, link) ∧ link.arg 1 = some ((5 : ChannelNo).1 : Int) ∧
      fits (s.channel 5) (s.account 7) = true ∧ fits (noon.channel 5) (s.account 7) = false ∧ clear.arg 1 = none) ∧
    (takenRequest (asked .deleteDraft [] s) .deleteDraft = some (.b, ask7 .deleteDraft [])) ∧
    (stale.expected = some 1 ∧ (1 : Word16) ≠ (s.account 7).cfgRev ∧
      takenRequest (asking stale s) .linkSource = some (.b, stale)) ∧
    ((plant activeAccount none).account 7).state ≠ .draft := by decide +kernel

theorem test_meets_DraftRequests_common :
    ∀ c ∈ [RequestCode.setLimits, .linkSource, .activate, .amend, .reassign, .retire, .deleteDraft, .certify, .mark],
      takenRequest (asking (ask c 128 []) noon) c = some (.b, ask c 128 []) ∧ 127 < (ask c 128 []).target ∧
      (let r := { ask c 7 [] with expected := some 1 };
        takenRequest (asking r noon) c = some (.b, r) ∧ (1 : Word16) ≠ (noon.account 7).cfgRev) := by decide +kernel

theorem test_meets_ActivateBringsIntoService :
    let r := ask7 .activate [];
    let s := asking r (plant (draftOf (some 5)) none);
    (takenRequest s .activate = some (.b, r) ∧ r.target = 7 ∧ r.expected = none ∧ (s.account 7).state = .draft ∧
      (s.account 7).source = some 5 ∧ fits (s.channel 5) (s.account 7) = true ∧ (s.channel 5).link = none ∧
      (∀ j, j ≠ 7 → (s.account j).state ≠ .active) ∧ s.clock.state = .run ∧ gapWaiting s = false) ∧
    ((plant (draftOf (some 5)) (some 9)).channel 5).link ≠ none ∧ (clockAt .hold s).clock.state ≠ .run ∧
    takenRequest (clockAt .hold s) .activate = some (.b, r) ∧
    (let t := { withQueue [.gap (gapBefore 2)] s with lastClaim := .entry };
      takenRequest t .activate = some (.b, r) ∧ t.clock.state = .run ∧ gapWaiting t = true) ∧
    ((plant activeAccount none).account 7).state ≠ .draft ∧ (draftOf none).source = none ∧
    fits ((noon.setAccount 7 (draftOf (some 5))).channel 5) (draftOf (some 5)) = false := by decide +kernel

theorem test_meets_AmendHandsChannelOver :
    let r := ask7 .amend [8];
    let s := asking r ((plant activeAccount (some 7)).setAccount 8 { draftOf none with key := ⟨3, 2, 2⟩ });
    takenRequest s .amend = some (.b, r) ∧ r.arg 1 = some ((8 : SlotNo).1 : Int) ∧ (8 : SlotNo) ≠ 7 ∧
    (s.account 7).state = .active ∧ (s.account 7).source = some 5 ∧ (s.account 8).state = .draft ∧
    (s.account 8).key.stack = (s.account 7).key.stack ∧ (s.account 8).key.substance = (s.account 7).key.substance ∧
    (s.account 7).key.edition < (s.account 8).key.edition ∧ (s.account 8).source = none ∧ s.clock.state = .run ∧
    gapWaiting s = false ∧
    ((∀ j : SlotNo, j ≠ 7 → (ask7 .amend [7]).arg 1 ≠ some (j.1 : Int)) ∧ (noon.account 7).state ≠ .active ∧
      ¬ (s.account 7).key.edition < (draftOf none).key.edition ∧ (clockAt .hold s).clock.state ≠ .run ∧
      gapWaiting (withQueue [.gap (gapBefore 2)] s) = true) := by decide +kernel

theorem test_meets_ReassignAndRetire :
    let s := (plant activeAccount (some 7)).setChannel 6 idleChannel;
    let r := ask7 .reassign [6];
    (takenRequest (asking r s) .reassign = some (.b, r) ∧ r.arg 1 = some ((6 : ChannelNo).1 : Int) ∧
      (s.account 7).state = .active ∧ (s.account 7).source = some 5 ∧ (s.account 7).current = some (.fresh 151 0) ∧
      fits (s.channel 6) (s.account 7) = true ∧ (s.channel 6).link = none ∧ s.clock.state = .run ∧ gapWaiting s = false) ∧
    takenRequest (asked .retire [] s) .retire = some (.b, ask7 .retire []) ∧
    ((∀ c : ChannelNo, (ask7 .reassign [48]).arg 1 ≠ some (c.1 : Int)) ∧ (noon.account 7).state ≠ .active ∧
      (noon.channel 6).state = .unused ∧ (s.channel 5).link ≠ none ∧ fits (s.channel 5) (s.account 7) = true ∧
      (clockAt .hold s).clock.state ≠ .run ∧ gapWaiting (withQueue [.gap (gapBefore 2)] s) = true) := by decide +kernel

theorem test_meets_CertifyEmptiesClosedSide :
    let r := ask7 .certify [];
    let closed : ClosedSide := ⟨2034, .empty, 0, ⟨true, true, true, true⟩⟩;
    let held := plant { activeAccount with closed := some closed } (some 7);
    let lapsed := plant { activeAccount with state := .lapsed, current := none, closed := some closed } none;
    (takenRequest (asking r held) .certify = some (.b, r) ∧ (held.account 7).closed = some closed ∧
      (held.account 7).state ≠ .lapsed) ∧
    (takenRequest (asking r lapsed) .certify = some (.b, r) ∧ (lapsed.account 7).closed = some closed ∧
      (lapsed.account 7).state = .lapsed) ∧
    (takenRequest (asking r (plant activeAccount (some 7))) .certify = some (.b, r) ∧
      ((plant activeAccount (some 7)).account 7).closed = none) := by decide +kernel

theorem test_meets_MarkActsOnSelection :
    let s := plant activeAccount (some 7);
    (∀ f : Fin 4, let r := ask7 .mark [BitVec.ofNat 32 f.1, 0x1F, 0x08];
      takenRequest (asking r s) .mark = some (.b, r) ∧ r.arg 1 = some (f.1 : Int) ∧ r.word 2 ≠ 0 ∧
        plantMarksOnly (r.word 2) = true ∧ plantMarksOnly (r.word 3) = true ∧ r.level ≤ 1) ∧
    ((s.account 7).state = .active ∧ (s.account 7).current = some (.fresh 151 0)) ∧
    (let r := { ask7 .mark [0, 4] with level := 2 };
      takenRequest (asking r s) .mark = some (.b, r) ∧ r.level = 2 ∧ r.word 2 &&& 7#32 ≠ 0) ∧
    ((noon.account 7).state ≠ .active ∧ (noon.account 7).state ≠ .frozen ∧
      (∀ f : Fin 4, (ask7 .mark [4, 8]).arg 1 ≠ some (f.1 : Int)) ∧ (ask7 .mark [0, 0]).word 2 = 0 ∧
      plantMarksOnly ((ask7 .mark [0, 0x20]).word 2) = false ∧
      (ask7 .mark [3, 8, 0x20]).arg 1 = some 3 ∧ plantMarksOnly ((ask7 .mark [3, 8, 0x20]).word 3) = false) := by
  decide +kernel

theorem test_meets_ChannelRequestsChangeRecord_terms :
    let r := { ask .configureChannel 5 [0, 5000, 30, 6, 2000] with stack := 3, substance := 2 };
    let new : Channel := { idleChannel with minMinutes := 30, oxygen := some ⟨6, 2000⟩ };
    let s := asking r (noon.setChannel 6 { idleChannel with substance := 15 });
    (takenRequest s .configureChannel = some (.b, r) ∧ r.target = 5 ∧ (s.channel 5).state ≠ .collecting ∧
      r.arg 1 = some new.low ∧ r.arg 2 = some new.high ∧ r.arg 3 = some (new.minMinutes : Int) ∧
      r.arg 4 = some ((6 : ChannelNo).1 : Int) ∧ r.arg 5 = some ((2000 : Nat) : Int) ∧ new.link = (s.channel 5).link ∧
      (s.channel 6).state ≠ .unused ∧ (s.channel 6).substance = 15 ∧ (s.channel 6).stack = new.stack ∧
      (s.channel 5).link = none ∧ ∀ d, d ≠ 5 → (s.channel d).oxygen = none) ∧
    (let t := asking r (noon.setChannel 5 { idleChannel with state := .collecting });
      takenRequest t .configureChannel = some (.b, r) ∧ (t.channel 5).state = .collecting) ∧
    (let plain := { ask .configureChannel 5 [0, 2100, 1, absent] with stack := 3, substance := 15 };
      let t := asking plain (plant activeAccount (some 7));
      takenRequest t .configureChannel = some (.b, plain) ∧ (15 : Fin 16) ≠ (t.channel 5).substance ∧
        (t.channel 5).link ≠ none ∧ plain.arg 4 = none) := by decide +kernel

theorem test_meets_ChannelRequestsChangeRecord_state :
    let at5 := fun c => ask c 5 [];
    let on := noon.setChannel 5 { idleChannel with state := .collecting };
    let idle_ := noon.setChannel 5 idleChannel;
    (takenRequest (asking (at5 .startChannel) idle_) .startChannel = some (.b, at5 .startChannel) ∧
      (idle_.channel 5).state = .idle ∧
      takenRequest (asking (at5 .startChannel) on) .startChannel = some (.b, at5 .startChannel) ∧
      (on.channel 5).state ≠ .idle) ∧
    (takenRequest (asking (at5 .stopChannel) on) .stopChannel = some (.b, at5 .stopChannel) ∧
      (on.channel 5).state = .collecting ∧ (idle_.channel 5).state ≠ .collecting) ∧
    (takenRequest (asking (at5 .releaseChannel) idle_) .releaseChannel = some (.b, at5 .releaseChannel) ∧
      (idle_.channel 5).link = none ∧ (∀ i, (idle_.account i).state = .free) ∧ (∀ d, (idle_.channel d).oxygen = none) ∧
      ((plant activeAccount (some 7)).channel 5).link ≠ none) := by decide +kernel

theorem test_meets_ReadRequestsFillView :
    (let r := ask .readAccount 127 [];
      takenRequest (asking r noon) .readAccount = some (.b, r) ∧ r.target = (127 : SlotNo).1) ∧
    (let r := ask .readChannel 48 [];
      takenRequest (asking r noon) .readChannel = some (.b, r) ∧ 47 < r.target) ∧
    (let r := ask .readStack 3 [];
      takenRequest (asking r noon) .readStack = some (.b, r) ∧ r.target = (3 : StackNo).1) ∧
    (let r := ask .readEpisode 0 [1, 0];
      let s := asking r { noon with episodes := [openEp 4 (.exceedance 7) false] };
      takenRequest s .readEpisode = some (.b, r) ∧ s.episodes[0]? = some (openEp 4 (.exceedance 7) false) ∧
        r.arg 1 = some 1 ∧ r.arg 2 = some ((0 : Nat) : Int)) ∧
    (let r := ask .readEpisode 0 [0, 4];
      r.arg 1 = some 0 ∧ r.arg 2 = some ((4 : Nat) : Int)) := by decide +kernel

theorem test_meets_SetAllowanceEvaluatesRun :
    let r := ask .setAllowance 3 [96, 2000];
    takenRequest (asking r noon) .setAllowance = some (.b, r) ∧ r.target = (3 : StackNo).1 ∧
    r.arg 1 = some ((96 : Nat) : Int) ∧ r.arg 2 = some ((2000 : Nat) : Int) := by decide +kernel

theorem test_meets_AckEpisodeTakesNote :
    let r := ask .ackEpisode 0 [4, 255];
    let e := openEp 4 (.exceedance 7) false;
    takenRequest (asking r { noon with episodes := [e] }) .ackEpisode = some (.b, r) ∧ r.arg 1 = some ((4 : Nat) : Int) ∧
    r.arg 2 = some ((255 : Nat) : Int) ∧ [e] = [] ++ e :: [] ∧ e.number = 4 ∧ e.acknowledged = false ∧ e.isOpen = true ∧
    { e with ended := some ⟨2035, 151, 32⟩ }.isOpen = false ∧ { e with acknowledged := true }.acknowledged = true ∧
    ∀ x ∈ noon.episodes, x.number ≠ 4 := by decide +kernel

theorem test_meets_Compares :
    Compares { ask .find 0 [4, 1, 31, 127] with stack := 3, substance := 15, edition := 255 }
      ⟨some 3, some 15, some 255, some 4, some 1⟩ ∧
    Compares (ask .find 0 [absent, absent, 0, 0]) ⟨none, none, none, none, none⟩ := by
  refine ⟨⟨by decide, rfl, by decide, rfl, by decide, rfl, by decide, by decide, ?_, by decide, ?_⟩,
    ⟨by decide, rfl, by decide, rfl, by decide, rfl, by decide, fun _ => rfl, by decide, fun _ => rfl, by decide⟩⟩
  · exact fun _ => ⟨4, by decide, by decide, rfl⟩
  · exact fun _ => ⟨1, by decide, by decide, rfl⟩

theorem test_meets_FindReturnsMatches :
    let r := { ask .find 0 [4, 1, 31, 127] with stack := 3, substance := 15, edition := 255 };
    takenRequest (asking r noon) .find = some (.b, r) ∧ r.arg 4 = some ((127 : SlotNo).1 : Int) ∧
    (∀ i, (noon.account i).matching ⟨some 3, some 15, some 255, some 4, some 1⟩ = false) ∧
    Account.free.matching ⟨some 0, none, none, some 0, none⟩ = true ∧
    (let bad := ask .find 0 [0, 0, 0, 128];
      takenRequest (asking bad noon) .find = some (.b, bad) ∧ ∀ i : SlotNo, bad.arg 4 ≠ some (i.1 : Int)) ∧
    (let bad := ask .find 0 [0, 0, 32, 0];
      takenRequest (asking bad noon) .find = some (.b, bad) ∧ ¬ (bad.word 3).toNat < 32) := by decide +kernel

theorem test_meets_PartStatusReads :
    (windowRead .a 0x00 State.reset).1 = 0x4A ∧ (windowRead .b 0x01 State.reset).1 = 0x01 ∧
    (windowRead .b 0x0C (phaseAt .stopping noon)).1 = 4 ∧ (phaseAt .stopped noon).part = .stopped ∧
    (0x0F : Nat) < (0x10 : Loc).toNat ∧
    (let s := withQueue [.gap (gapBefore 2)] noon; (∃ g, Entry.gap g ∈ s.queue) ∧ (windowRead .a 0x0B s).1 = 1) ∧
    (∀ g, Entry.gap g ∉ noon.queue) := by
  refine ⟨by decide +kernel, by decide +kernel, by decide +kernel, rfl, by decide,
    ⟨⟨gapBefore 2, List.mem_singleton.mpr rfl⟩, by decide +kernel⟩, fun g h => by cases h⟩

theorem test_meets_RequestPostingAndEventReads :
    noon.part ≠ .stopped ∧ (0x62 : Loc) ∉ effectLocs ∧ (0x62 : Loc).toNat ≠ 0x53 ∧
    (let s := collecting (loadedAt 1000 0x123456 3) true none;
      let t := { s with portA := { s.portA with channelSelect := 5 } };
      selected t = some (5, .x) ∧ (windowRead .a 0x6A t).1 = 0x12 ∧ (windowRead .a 0x66 t).1 = 0xE8 ∧
        (windowRead .a 0x6D t).1 = 1 ∧ (windowRead .a 0x6F t).1 = 1 ∧ (windowRead .a 0x6E t).1 = 1 ∧
        (windowRead .b 0x6A t).1 = 0) ∧
    selected { noon with portA := { noon.portA with channelSelect := 48 } } = none ∧
    (let r : Response := ⟨some .power, 0x2C, tabulate (fun i => BitVec.ofNat 32 i.1)⟩;
      let s := noon.setCommon .a { noon.common .a with area := { RequestArea.reset with response := r } };
      (windowRead .a 0x30 s).1 = 13 ∧ (windowRead .a 0x32 s).1 = 0 ∧ (windowRead .a 0x46 s).1 = 5) := by decide +kernel

/-- 02 R47: the older slot where Y is earlier, where X is, and where the stamps are equal; the ends of the read ranges. -/
theorem test_meets_RequestPostingAndEventReads_bounds :
    (let pair := fun x y : Word16 =>
        { noon with slots := put noon.slots 5 ⟨loadedAt x 0 0, loadedAt y 0 0⟩
                    portA := { noon.portA with channelSelect := 5 } };
      (windowRead .a 0x6F (pair 1000 999)).1 = 1 ∧ (windowRead .a 0x6F (pair 999 1000)).1 = 0 ∧
        (windowRead .a 0x6F (pair 999 999)).1 = 0) ∧
    (let s := noon.setCommon .a { noon.common .a with
        block := put (put (noon.common .a).block 0 7) 30 9
        area := { RequestArea.reset with response := ⟨some .done, 0x2C, Vector.replicate 6 0xA1B2C3D4⟩ } };
      (windowRead .a 0x10 s).1 = 7 ∧ (windowRead .a 0x2E s).1 = 9 ∧ (windowRead .a 0x2F s).1 = 0 ∧
        (windowRead .a 0x31 s).1 = 0x2C ∧ (windowRead .a 0x32 s).1 = 0xD4 ∧ (windowRead .a 0x49 s).1 = 0xA1 ∧
        (windowRead .a 0x4A s).1 = 0 ∧ (windowRead .a 0x4F s).1 = 0 ∧ (windowRead .a 0x54 s).1 = 0 ∧
        (windowRead .a 0x5F s).1 = 0 ∧ (windowRead .b 0x60 s).1 = 0) ∧
    (let s := { noon with events := { EventUnit.reset with
        sources := put (put EventUnit.reset.sources 0 ⟨true, false, true, false, 0⟩) 15 ⟨false, true, false, true, 0⟩ } };
      [0x70, 0x71, 0x72, 0x73, 0x74, 0x75, 0x76, 0x77, 0x7A, 0x7D].map (fun l => (windowRead .a l s).1) =
        [1, 0, 1, 0, 0, 128, 0, 128, 0, 0]) := by decide +kernel

theorem test_meets_SnapshotsLayOutBytes :
    let a := { activeAccount with terms := ⟨some 600, none, some 0x10203, 8, 5, 10⟩ };
    let b := (Snapshot.account ⟨7, a, none, 1, some 4⟩).bytes;
    ShowsOr b 8 4 (some 600) ∧ ShowsOr b 12 4 none ∧ ShowsOr b 18 4 (some 0x10203) ∧ ShowsOr b 5 1 none ∧
    ShowsStamp b 30 2035 1 0 ∧ ShowsStampOr b 34 none ∧ Shows b 28 2 4 ∧ ZeroFrom b 101 50 := by
  simp only [ShowsOr, ShowsStamp, ShowsStampOr, Shows, ZeroFrom, reduceCtorEq, false_imp_iff, forall_const,
    Option.some.injEq, forall_eq', true_and, and_true, implies_true]
  decide +kernel

theorem test_meets_FrameOpensAndCloses :
    noon.portA.csnLow = false ∧ { noon.portA with csnLow := true, frame := some .header }.frame = some .header := by
  decide +kernel

theorem test_meets_RegisterAndViewPointerWrites :
    (Writes .b 0x51 (writingB 0x51 noon) ∧ Writes .a 0x60 (writingA 0x60 noon) ∧ Writes .a 0x61 (writingA 0x61 noon) ∧
      Writes .a 0x7A (writingA 0x7A noon) ∧ Writes .a 0x7C (writingA 0x7C noon) ∧ Writes .a 0x0F (writingA 0x0F noon) ∧
      Writes .b 0x60 (writingB 0x60 noon) ∧ Writes .a 0x6D (writingA 0x6D noon) ∧ Writes .a 0x77 (writingA 0x77 noon)) ∧
    (ownRow .a 0x51 = false ∧ ownRow .a 0x10 = false ∧ ownRow .a 0x2E = false ∧ ownRow .a 0x61 = false ∧
      ownRow .a 0x7A = false ∧ ownRow .a 0x7C = false ∧ ownRow .a 0x0F = false ∧ ownRow .b 0x60 = false ∧
      ownRow .a 0x53 = false ∧ ownRow .a 0x5F = false ∧ ownRow .a 0x6D = false ∧ ownRow .a 0x6F = false ∧
      ownRow .a 0x74 = false ∧ ownRow .a 0x77 = false ∧ ownRow .a 0x79 = false ∧ ownRow .a 0x7F = false) ∧
    noon.part ≠ .stopped ∧ (phaseAt .stopped noon).part = .stopped ∧ (1 : Byte).toNat * 256 + (255 : Byte).toNat ≤ 511 ∧
    511 < (2 : Byte).toNat * 256 + (0 : Byte).toNat := by
  refine ⟨⟨⟨rfl, rfl, rfl⟩, rfl, rfl, rfl, rfl, rfl, ⟨rfl, rfl, rfl⟩, rfl, rfl⟩, ?_⟩
  decide +kernel

theorem test_meets_FrameReads :
    FrameReads 0x04 (readingA 0x00 noon) ∧ FrameReads 0x53 (readingA 0x05 noon) ∧ FrameReads 0x79 (readingA 0x79 noon) ∧
    FrameReads 0x7F (readingA 0x7F noon) :=
  ⟨⟨_, rfl, by decide⟩, ⟨_, rfl, by decide⟩, ⟨_, rfl, by decide⟩, ⟨_, rfl, by decide⟩⟩

theorem test_meets_CaptureAndViewReads :
    noon.portB.lineBreak = false ∧ noon.portB.phase = .selector ∧ noon.portB.sending = none ∧ noon.part ≠ .stopped ∧
    (let s := setView .b (.stack ⟨3, .reset, false, .reset⟩) noon;
      ((s.common .b).view.snapshot.bytes[(s.common .b).view.pointer]?).isSome) ∧
    (noon.common .a).view.snapshot.bytes.length ≤ (noon.common .a).view.pointer := by decide +kernel

/-- Port A with channel 5, slot X selected and a frame at a location. -/
def selecting (loc : Loc) (s : State) : State :=
  let t := writingA loc s;
  { t with portA := { t.portA with channelSelect := 5, slotSelect := 0 } }

theorem test_meets_PostingAreaWritesAndHandOver_record :
    selected (selecting 0x6B noon) = some (5, .x) ∧ (((selecting 0x6B noon).slotPair 5).get .x).loaded = false ∧
    (selecting 0x6B noon).part = .running ∧ Writes .a 0x6B (selecting 0x6B noon) ∧
    (((selecting 0x62 (collecting (loadedAt 1000 95 0) true none)).slotPair 5).get .x).loaded = true ∧
    selected { noon with portA := { noon.portA with channelSelect := 48 } } = none := by
  refine ⟨?_, ?_, ?_, rfl, ?_, ?_⟩ <;> decide +kernel

theorem test_meets_PostingAreaWritesAndHandOver_checks :
    let at_ := fun p => selecting 0x6C (collecting p true none);
    let fresh := { loadedAt 1000 95 3 with loaded := false };
    let slot := fun s : State => (s.slotPair 5).get .x;
    let other := fun s : State => (s.slotPair 5).get .y;
    (selected (at_ fresh) = some (5, .x) ∧ (at_ fresh).part ≠ .stopped ∧ inHand (at_ fresh) .engine = none ∧
      (at_ fresh).monitorHand = none ∧ (at_ fresh).clockHand = none) ∧
    ((at_ fresh).clock.state = .run ∧ (at_ fresh).part = .running ∧ ((at_ fresh).channel 5).state = .collecting ∧
      (slot (at_ fresh)).loaded = false ∧ (slot (at_ fresh)).qualityCode ≤ 3 ∧
      (slot (at_ fresh)).stamp = (at_ fresh).clock.position ∧ (other (at_ fresh)).loaded = false) ∧
    (clockAt .hold (at_ fresh)).clock.state ≠ .run ∧ ((selecting 0x6C noon).channel 5).state ≠ .collecting ∧
    (slot (at_ (loadedAt 1000 95 0))).loaded = true ∧ ¬ (slot (at_ { fresh with quality := 4 })).qualityCode ≤ 3 ∧
    (slot (at_ { fresh with minute := 999 })).stamp ≠ (at_ fresh).clock.position ∧
    (let s := at_ fresh;
      let t := { s with slots := put s.slots 5 ⟨fresh, loadedAt 1000 7 0⟩ };
      ¬ ((other t).loaded = false ∨ (other t).stamp ≠ (slot t).stamp)) := by decide +kernel

theorem test_meets_VectorAndDetailReads :
    let u : EventUnit := { EventUnit.reset with
      control := 0x8A, detailPointer := 16, highNext := true
      sources := put EventUnit.reset.sources 15 ⟨true, true, false, false, 3⟩ };
    (u.presentable 15 = true ∧ (∀ j, 15 < j → u.presentable j = false) ∧ ∀ i, EventUnit.reset.presentable i = false) ∧
    (EventUnit.reset.highNext = false ∧ EventUnit.reset.detailPointer.1 = (0 : Fin 16).1) ∧
    (u.detailPointer.1 = 16 ∧ u.highNext = true ∧ (0 : Fin 17).1 = (if u.detailPointer.1 = 16 then 0 else 17)) ∧
    noon.part ≠ .stopped ∧ intPin noon = true ∧ intPin { noon with events := u } = false := by decide +kernel

theorem test_meets_Presentable :
    Presentable { EventUnit.reset with sources := put EventUnit.reset.sources 15 ⟨true, true, false, false, 3⟩ } 15 ∧
    ∀ i, ¬ Presentable EventUnit.reset i := by
  unfold Presentable
  decide +kernel

theorem test_meets_EventRecordedWhenEnabled :
    (EventUnit.reset.sources.get EventSource.feed.number).enable = false ∧
    ((EventUnit.reset.writeEnable 0 0xFF).sources.get EventSource.feed.number).enable = true := by decide +kernel

theorem test_meets_EventUnitWrites :
    noon.part ≠ .stopped ∧ (16 : Byte).toNat = (16 : Fin 17).1 ∧ 16 < (17 : Byte).toNat := by decide +kernel

theorem test_meets_PortBReceivesAndSends :
    noon.portB.lineBreak = false ∧ noon.portB.phase = .selector ∧ (0x84 : Byte).getLsbD 7 = true ∧
    (0x04 : Byte).getLsbD 7 = false ∧ noon.portB.sending = none ∧ (writingB 0x10 noon).portB.phase = .value ∧
    { noon.portB with sending := some 1, answers := [2] }.answers = 2 :: [] := by decide +kernel

/-- The laws hold right after reset, so the hypotheses of the five invariants are met with a step from it. -/
theorem test_meets_invariants : leadsTo (step State.reset) (fun _ => true) = true ∧
    (∀ i, State.reset.account i = .free) ∧ (∀ c, (State.reset.channel c).link = none) ∧ State.reset.queue = [] ∧
    State.reset.episodes = [] ∧ (∀ i, State.reset.input i = .reset) ∧ (∀ i, State.reset.allowance i = .reset) ∧
    State.reset.inFlight = none ∧ State.reset.monitorHand = none ∧ State.reset.clockHand = none ∧
    State.reset.handOrder = [] := by
  decide +kernel

end Sys2Proof.Tests
end

section
/-! SUPPORT. The emission accounts: the reset state, the lifecycle requests, the absorption of RESULT entries, and the account
and link laws through every step (01). -/

namespace Sys2Proof.Machine

/-! # What holds of the reset state: its records (01 R4, 02 R29, R40, 03 R48, R58, 05 R92, R96) and the ten laws. -/

/-! ## The records of the reset state -/

@[simp] theorem account_reset (i : SlotNo) : State.reset.account i = .free := get_replicate ..

@[simp] theorem channel_reset (c : ChannelNo) : State.reset.channel c = .unused := get_replicate ..

@[simp] theorem allowance_reset (i : StackNo) : State.reset.allowance i = .reset := get_replicate ..

@[simp] theorem input_reset (i : StackNo) : State.reset.input i = .reset := get_replicate ..

@[simp] theorem feedLine_reset (i : StackNo) : State.reset.feedLine i = false := get_replicate ..

@[simp] theorem slotPair_reset (c : ChannelNo) : State.reset.slotPair c = .reset := get_replicate ..

@[simp] theorem slot_reset (n : SlotName) : SlotPair.reset.get n = .reset := by cases n <;> rfl

@[simp] theorem common_reset (p : Port) : State.reset.common p = .reset := by cases p <;> rfl

/-- With no source pending, nothing is presentable and INT is high (11 R177). -/
theorem intPin_reset : intPin .reset = true := by
  have quiet : ∀ i, EventUnit.reset.presentable i = false := fun i => by
    simp [EventUnit.presentable, EventUnit.reset, SourceRecord.reset]
  exact congrArg (! ·) (anyOf_false_iff.mpr quiet)

theorem stopPin_reset (i : StackNo) : stopPin .reset i = false := by
  rw [stopPin, allowance_reset]; rfl

/-- No request waits in an IDLE area (10 R170). -/
theorem waitingAt_reset (o : Owner) (p : Port) : waitingAt .reset o p = none := by
  cases p <;> rfl

theorem inHand_reset (o : Owner) : inHand .reset o = none := by cases o <;> rfl

/-! ## The laws of the reset state -/

theorem accountLaw_reset : AccountLaw .reset := by
  refine ⟨fun i => ?_, fun i j _ hi => ?_, fun i j _ hi => ?_⟩
  · rw [account_reset]; rfl
  · exact absurd (congrArg Account.state (account_reset i)) hi
  · rw [account_reset] at hi; cases hi

theorem linkLaw_reset : LinkLaw .reset := by
  refine ⟨fun c i hl => ?_, fun i hi => ?_⟩
  · rw [channel_reset] at hl; cases hl
  · rw [account_reset] at hi; cases hi

theorem queueLaw_reset : QueueLaw .reset :=
  ⟨Nat.zero_le _, fun hfull => absurd hfull (by decide), fun _ _ => rfl⟩

theorem clockLaw_reset : ClockLaw .reset := by
  simp [ClockLaw, State.reset, Clock.reset]

theorem stackInputLaw_reset : StackInputLaw .reset := fun i => by
  simp [StackInput.lawful, StackInput.reset]

theorem allowanceLaw_reset : AllowanceLaw .reset := fun i => by
  simp [StackAllowance.lawful, StackAllowance.reset]

theorem episodeLaw_reset : EpisodeLaw .reset := by
  simp [EpisodeLaw, State.reset]

theorem slotLaw_reset : SlotLaw .reset := fun c => by
  have empty : ∀ n, ((State.reset.slotPair c).get n).loaded = false := fun n => by
    rw [slotPair_reset, slot_reset]; rfl
  refine ⟨fun hrun => ?_, fun _ => empty, fun hx => ?_⟩
  · cases hrun
  · exact absurd ((empty .x).symm.trans hx) Bool.false_ne_true

theorem portLaw_reset : PortLaw .reset := by
  simp [PortLaw, State.reset, PortA.reset, PortB.reset, PortCommon.reset, View.reset]

theorem handLaw_reset : HandLaw .reset := by
  refine ⟨fun o p h => ?_, fun h => ?_, fun _ o p _ h => ?_, fun _ => rfl, fun _ => rfl, fun o => ?_, List.nodup_nil⟩
  · rw [inHand_reset] at h; cases h
  · cases h
  · rw [waitingAt_reset] at h; cases h
  · rw [inHand_reset]; exact iff_of_false List.not_mem_nil Bool.false_ne_true

/-! ## The statements -/

/-- Settles O3: each record by its reading at reset, each field by its value. -/
theorem resetIsDeliveredPart : Obligations.ResetIsDeliveredPart := by
  refine ⟨account_reset, channel_reset, allowance_reset, rfl, input_reset, fun c n => ?_, fun c => get_replicate ..,
    fun i => get_replicate .., rfl, rfl, rfl, rfl, rfl, rfl, rfl, rfl, fun p => ?_, rfl, rfl, rfl, rfl, rfl, rfl, rfl, rfl,
    rfl, rfl, fun i => get_replicate .., rfl, rfl, rfl, rfl, rfl, rfl, rfl, rfl, intPin_reset, stopPin_reset, rfl, rfl,
    rfl, rfl, feedLine_reset, rfl⟩
  · rw [slotPair_reset, slot_reset]; rfl
  · rw [common_reset]
    exact ⟨rfl, rfl, rfl, rfl, rfl, fun i => get_replicate .., rfl, rfl, rfl, rfl, fun i => get_replicate ..⟩

/-- Settles O4: law by law. -/
theorem lawsHoldAtReset : Obligations.LawsHoldAtReset :=
  ⟨accountLaw_reset, linkLaw_reset, queueLaw_reset, clockLaw_reset, stackInputLaw_reset, allowanceLaw_reset,
    episodeLaw_reset, slotLaw_reset, portLaw_reset, handLaw_reset⟩

/-! # A taken request with nothing ahead of it, the common checks of the account requests (01 R16) and their arguments
(10 R172): what each answers, once per case. -/

/-! ## A taken request -/

/-- An owner finds the state as it stands when no crossing request is ahead (assumption 25). -/
theorem NoneAhead.completeEarlier_eq {s : State} {o : Owner} (h : NoneAhead o s) : completeEarlier o s = s :=
  completeEarlier_none fun q hq p c r hr => by
    obtain ⟨hhand, hwait, hcode⟩ := handRequest_iff.mp hr
    exact h q hq p c r hhand hwait (byte_ofByte hcode)

/-- The row of a request is its run with its own checks and effect. -/
theorem exec_requestRow (c : RequestCode) (s : State) : exec (requestRow c) s = runRequest c (performRequest c) s := by
  cases c <;> rfl

theorem Takes.exec_eq {s : State} {c : RequestCode} {p : Port} {r : Request} (h : Takes s c p r) :
    exec (requestRow c) s = .next (finish c.owner (answer p r.code (performRequest c r s) s)) := by
  rw [exec_requestRow]
  exact run_eq h.1 h.2.completeEarlier_eq _

theorem Takes.done {s t : State} {c : RequestCode} {p : Port} {r : Request} {v : List Word32} (h : Takes s c p r)
    (hp : performRequest c r s = .done v t) : exec (requestRow c) s = .next (doneAt c.owner p r v t) := by
  rw [h.exec_eq, hp]; rfl

theorem Takes.refused {s : State} {c : RequestCode} {p : Port} {r : Request} {o : ReqOutcome} (h : Takes s c p r)
    (hp : performRequest c r s = .refused o) : exec (requestRow c) s = .next (refusedAt c.owner p r o s) := by
  rw [h.exec_eq, hp]; rfl

/-! ## The common checks (01 R16) -/

theorem NamesAccount.withTarget_eq {r : Request} {s : State} {i : SlotNo} (h : NamesAccount r s i)
    (k : SlotNo → Account → Reply) : withTarget r s k = k i (s.account i) := withTarget_pass h.1 h.2 k

theorem withTarget_range {r : Request} {s : State} (h : 127 < r.target) (k : SlotNo → Account → Reply) :
    withTarget r s k = .refused .argument := by
  simp [withTarget, index_none h]

theorem LinksMayChange.withClockAndBacklog_eq {s : State} (h : LinksMayChange s) (k : Reply) :
    withClockAndBacklog s k = k := by
  simp [withClockAndBacklog, h.1, h.2]

theorem withClockAndBacklog_held {s : State} (h : s.clock.state ≠ .run) (k : Reply) :
    withClockAndBacklog s k = .refused .clockHeld := by
  simp [withClockAndBacklog, h]

theorem withClockAndBacklog_backlog {s : State} (h : s.clock.state = .run) (hg : gapWaiting s = true) (k : Reply) :
    withClockAndBacklog s k = .refused .backlog := by
  simp [withClockAndBacklog, h, hg]

/-! ## Keys and their users (01 R3, R20) -/

theorem keyTaken_true {s : State} {k : Key} :
    keyTaken s k = true ↔ ∃ i, (s.account i).state ≠ .free ∧ (s.account i).key = k := by
  simp [keyTaken, anyOf_true_iff]

theorem keyTaken_false {s : State} {k : Key} :
    keyTaken s k = false ↔ ∀ i, (s.account i).state ≠ .free → (s.account i).key ≠ k := by
  simp [keyTaken, anyOf_false_iff]

theorem fits_iff {ch : Channel} {a : Account} :
    fits ch a = true ↔ ch.state ≠ .unused ∧ ch.stack = a.key.stack ∧ ch.substance = a.key.substance := by
  simp [fits, and_assoc]

theorem succeeds_iff {succ a : Account} :
    succeeds succ a = true ↔ succ.key.stack = a.key.stack ∧ succ.key.substance = a.key.substance ∧
      a.key.edition < succ.key.edition ∧ succ.source = none := by
  simp [succeeds, and_assoc]

/-! ## Arguments of the account requests -/

theorem keyArg_of {r : Request} {k : Key} (hst : r.stack = k.stack.1) (hsub : r.substance = k.substance.1)
    (hed : r.edition = k.edition.1) (h : r.substance ≤ 14) : keyArg r = some k := by
  have h' : k.substance.1 ≤ 14 := hsub ▸ h
  simp [keyArg, index_of hst, index_of hsub, index_of hed, h']

theorem eq_of_index {n k : Nat} {i : Fin n} (h : index? n k = some i) : k = i.1 := by
  unfold index? at h
  split at h
  · cases h; rfl
  · cases h

theorem keyArg_range {r : Request} (h : 3 < r.stack ∨ 14 < r.substance ∨ 255 < r.edition) : keyArg r = none := by
  unfold keyArg
  split
  · rename_i st sub ed hst hsub hed
    have := eq_of_index hst; have := eq_of_index hsub; have := eq_of_index hed
    have := st.isLt; have := ed.isLt
    exact if_neg (by omega)
  · rfl

/-- No key of oxygen is taken (01 R3). -/
theorem keyArg_substance {r : Request} {k : Key} (h : keyArg r = some k) : k.substance.1 ≤ 14 := by
  unfold keyArg at h
  split at h
  · split at h
    · next hle => cases h; exact hle
    · cases h
  · cases h

theorem channelArg_none {r : Request} {n : Nat} (h : ∀ c : ChannelNo, r.arg n ≠ some (c.1 : Int)) :
    r.channelArg n = none := by
  unfold Request.channelArg
  rw [natArg_none fun v _ hv => h ⟨v, by omega⟩]

theorem successorArg_of {r : Request} {i j : SlotNo} (h : r.arg 1 = some (j.1 : Int)) (hne : j ≠ i) :
    successorArg r i = some j := by
  unfold successorArg
  rw [natArg_some h (Nat.zero_le _) (by omega)]
  simp [index_eq, hne]

theorem successorArg_none {r : Request} {i : SlotNo} (h : ∀ j : SlotNo, j ≠ i → r.arg 1 ≠ some (j.1 : Int)) :
    successorArg r i = none := by
  by_cases hi : r.arg 1 = some (i.1 : Int)
  · unfold successorArg
    rw [natArg_some hi (Nat.zero_le _) (by omega)]
    simp [index_eq]
  · have none_named : r.natArg 1 0 127 = none := natArg_none fun v _ hv he => by
      by_cases hvi : v = i.1
      · exact hi (hvi ▸ he)
      · exact h ⟨v, by omega⟩ (fun hx => hvi (congrArg Fin.val hx)) he
    unfold successorArg
    rw [none_named]

theorem sourceArg_clear {r : Request} (h : r.arg 1 = none) (s : State) (a : Account) : sourceArg r s a = some none := by
  simp [sourceArg, h]

theorem sourceArg_channel {r : Request} {c : ChannelNo} (h : r.arg 1 = some (c.1 : Int)) (s : State) (a : Account) :
    sourceArg r s a = if fits (s.channel c) a then some (some c) else none := by
  simp [sourceArg, h, channelArg_of h]

theorem pctArg_of {r : Request} {l : Option PctLimit} (h2 : r.arg 2 = l.map (fun l => Int.ofNat l.limit))
    (h3 : r.arg 3 = l.map (fun l => Int.ofNat l.share)) (h : ∀ x ∈ l, x.limit ≤ 268435455 ∧ x.share ≤ 1000) :
    pctArg r = some l := by
  cases l with
  | none => simp [pctArg, optArg_none h2, optArg_none h3]
  | some x =>
    obtain ⟨hl, hs⟩ := h x rfl
    simp [pctArg, optArg_some (hi := limitMax) h2 hl, optArg_some h3 hs]

/-- The two numbers of argument 6 (12 R185). -/
theorem wordSix_of {r : Request} {m a : Nat} (h : r.word 6 = BitVec.ofNat 32 (m + 65536 * a)) (hm : m ≤ 48)
    (ha : a ≤ 366) : maxInvalidArg r = m ∧ allowanceArg r = a := by
  unfold maxInvalidArg allowanceArg
  rw [h]
  simp only [BitVec.extractLsb'_toNat, BitVec.toNat_ofNat, Nat.shiftRight_eq_div_pow]
  omega

/-! # The lifecycle requests of accounts (01 R17 to R26): what each answers, and the statements about them. -/

/-! ## CREATE_ACCOUNT (01 R17) -/

theorem createAccount_done {r : Request} {s : State} {k : Key} {i : SlotNo} (hk : keyArg r = some k)
    (hfresh : ∀ j, (s.account j).state ≠ .free → (s.account j).key ≠ k) (hfree : (s.account i).state = .free)
    (hlow : ∀ j, j < i → (s.account j).state ≠ .free) :
    performCreateAccount r s = .done [num i, revWord 0] (s.setAccount i (draftAccount k)) := by
  have slot : lowestFree s = some i :=
    find_lowest (beq_iff_eq.mpr hfree) fun j hj => beq_eq_false_iff_ne.mpr (hlow j hj)
  simp [performCreateAccount, hk, keyTaken_false.mpr hfresh, slot]

/-- Settles O33: the three refusals in the order of the checks, then the effect. -/
theorem createAccountFillsLowestFree : Obligations.CreateAccountFillsLowestFree := by
  intro s p r ht
  refine ⟨fun hrange => ht.refused ?_, fun k hst hsub hed hle => ?_⟩
  · show performCreateAccount r s = _
    simp [performCreateAccount, keyArg_range hrange]
  · have hk : keyArg r = some k := keyArg_of hst hsub hed hle
    refine ⟨fun hused => ht.refused ?_, fun hfresh hfull => ht.refused ?_, fun i hfresh hfree hlow => ?_⟩
    · show performCreateAccount r s = _
      simp [performCreateAccount, hk, keyTaken_true.mpr hused]
    · have full : lowestFree s = none := lowest_none fun i => beq_eq_false_iff_ne.mpr (hfull i)
      show performCreateAccount r s = _
      simp [performCreateAccount, hk, keyTaken_false.mpr hfresh, full]
    · exact ht.done (createAccount_done hk hfresh hfree hlow)

/-! ## SET_LIMITS, LINK_SOURCE and DELETE_DRAFT (01 R18, R19, R25) -/

theorem termsArg_of {r : Request} {t : Terms} (h1 : r.optArg 1 limitMax = some t.short) (h2 : pctArg r = some t.pct)
    (h4 : r.optArg 4 limitMax = some t.day) (h5 : r.natArg 5 0 65535 = some t.ci)
    (h6 : maxInvalidArg r = t.maxInvalid ∧ allowanceArg r = t.allowance) (hm : t.maxInvalid ≤ 48)
    (ha : t.allowance ≤ 366) : termsArg r = some t := by
  simp [termsArg, h1, h2, h4, h5, h6.1, h6.2, hm, ha]

section
variable {r : Request} {s : State} {i : SlotNo}

theorem setLimits_done (hn : NamesAccount r s i) (hd : (s.account i).state = .draft) {t : Terms}
    (ht : termsArg r = some t) :
    performSetLimits r s = .done [revWord ((s.account i).cfgRev + 1)]
      (s.setAccount i { s.account i with terms := t }.revised) := by
  rw [performSetLimits, hn.withTarget_eq, if_neg (not_not.mpr hd), ht]; rfl

theorem linkSource_done (hn : NamesAccount r s i) (hd : (s.account i).state = .draft) {src : Option ChannelNo}
    (hs : sourceArg r s (s.account i) = some src) :
    performLinkSource r s = .done [revWord ((s.account i).cfgRev + 1), channelWord (s.account i).source]
      (s.setAccount i { s.account i with source := src }.revised) := by
  rw [performLinkSource, hn.withTarget_eq, if_neg (not_not.mpr hd), hs]; rfl

theorem linkSource_misfit (hn : NamesAccount r s i) (hd : (s.account i).state = .draft)
    (hs : sourceArg r s (s.account i) = none) : performLinkSource r s = .refused .argument := by
  rw [performLinkSource, hn.withTarget_eq, if_neg (not_not.mpr hd), hs]

theorem deleteDraft_done (hn : NamesAccount r s i) (hd : (s.account i).state = .draft) :
    performDeleteDraft r s = .done [num i] (s.setAccount i .free) := by
  rw [performDeleteDraft, hn.withTarget_eq, if_neg (not_not.mpr hd)]

/-- The requests that only a DRAFT account takes refuse every other one with STATE. -/
theorem draftOnly_refused (hn : NamesAccount r s i) (hd : (s.account i).state ≠ .draft) :
    performSetLimits r s = .refused .state ∧ performLinkSource r s = .refused .state ∧
    performDeleteDraft r s = .refused .state ∧ performActivate r s = .refused .state := by
  refine ⟨?_, ?_, ?_, ?_⟩
  · rw [performSetLimits, hn.withTarget_eq, if_pos hd]
  · rw [performLinkSource, hn.withTarget_eq, if_pos hd]
  · rw [performDeleteDraft, hn.withTarget_eq, if_pos hd]
  · rw [performActivate, hn.withTarget_eq, if_pos hd]

end

/-- The nine requests of an account that begin with the common checks of 01 R16. -/
theorem commonChecks_refused {c : RequestCode}
    (h : c ∈ [RequestCode.setLimits, .linkSource, .activate, .amend, .reassign, .retire, .deleteDraft, .certify, .mark])
    (r : Request) (s : State) :
    c.owner = .engine ∧ (127 < r.target → performRequest c r s = .refused .argument) ∧
    ∀ (i : SlotNo) (e : Word16), r.target = i.1 → r.expected = some e → e ≠ (s.account i).cfgRev →
      performRequest c r s = .refused .stale := by
  simp only [List.mem_cons, List.not_mem_nil, or_false] at h
  rcases h with rfl | rfl | rfl | rfl | rfl | rfl | rfl | rfl | rfl
  all_goals
    simp only [performRequest, performSetLimits, performLinkSource, performActivate, performAmend, performReassign,
      performRetire, performDeleteDraft, performCertify, performMark]
    exact ⟨rfl, fun hrange => withTarget_range hrange _, fun i e hi he hne => withTarget_stale hi he hne _⟩

/-- Settles O34: the three requests of a DRAFT account, their STATE refusals, and the common checks. -/
theorem draftRequests : Obligations.DraftRequests := by
  refine ⟨?setLimits, ?linkSource, ?deleteDraft, ?notDraft, ?common⟩
  case setLimits =>
    intro s p r i t ht hn hd h1 hl1 h2 h3 hl h4 hl4 h5 hci h6 hm ha
    exact ht.done (setLimits_done hn hd (termsArg_of (optArg_of h1 hl1) (pctArg_of h2 h3 hl) (optArg_of h4 hl4)
      (natArg_some h5 (Nat.zero_le _) hci) (wordSix_of h6 hm ha) hm ha))
  case linkSource =>
    intro s p r i ht hn hd
    refine ⟨fun harg => ht.done (linkSource_done hn hd (sourceArg_clear harg _ _)), fun c harg hfit => ?_,
      fun c harg hfit => ?_⟩
    · exact ht.done (linkSource_done hn hd ((sourceArg_channel harg _ _).trans (if_pos hfit)))
    · exact ht.refused (linkSource_misfit hn hd ((sourceArg_channel harg _ _).trans (if_neg (Bool.eq_false_iff.mp hfit))))
  case deleteDraft =>
    intro s p r i ht hn hd
    rw [account_reset]
    exact ht.done (deleteDraft_done hn hd)
  case notDraft =>
    intro s p r i hn hd
    obtain ⟨hset, hlink, hdelete, -⟩ := draftOnly_refused hn hd
    exact ⟨fun ht => ht.refused hset, fun ht => ht.refused hlink, fun ht => ht.refused hdelete⟩
  case common =>
    intro s p r c hc ht
    obtain ⟨howner, hrange, hstale⟩ := commonChecks_refused hc r s
    rw [← howner]
    exact ⟨fun h => ht.refused (hrange h), fun i e hi he hne => ht.refused (hstale i e hi he hne)⟩

/-! ## ACTIVATE (01 R20) -/

/-- An account that names its channel already keeps it as it goes into service. -/
theorem Account.intoService_of_source {a : Account} {c : ChannelNo} (hsrc : a.source = some c) (h : HalfHourStamp)
    (marks : MarkSet) :
    a.intoService h c marks =
      { a with state := .active, activatedAt := some h, current := some (.fresh h.day marks) }.revised := by
  rw [Account.intoService, ← hsrc]

section
variable {r : Request} {s : State} {i : SlotNo} {c : ChannelNo}

theorem activate_unsourced (hn : NamesAccount r s i) (hd : (s.account i).state = .draft)
    (hsrc : (s.account i).source = none) : performActivate r s = .refused .argument := by
  rw [performActivate, hn.withTarget_eq, if_neg (not_not.mpr hd), hsrc]

/-- With a source channel, ACTIVATE goes on to the channel and to the other accounts. -/
theorem activate_sourced (hn : NamesAccount r s i) (hd : (s.account i).state = .draft)
    (hsrc : (s.account i).source = some c) :
    performActivate r s =
      if !fits (s.channel c) (s.account i) then .refused .argument
      else if (s.channel c).link.isSome then .refused .inUse
      else if otherActive s i (s.account i).key then .refused .inUse
      else withClockAndBacklog s (
        .done [revWord ((s.account i).cfgRev + 1), num c, (pendingHalfHour s.clock).word]
          ((s.setAccount i ((s.account i).intoService (pendingHalfHour s.clock) c 0)).setLink c (some i))) := by
  rw [performActivate, hn.withTarget_eq, if_neg (not_not.mpr hd), hsrc]
  rfl

end

/-- Settles O35: the checks in order, then the effect. -/
theorem activateBringsIntoService : Obligations.ActivateBringsIntoService := by
  refine ⟨fun s p r i ht hn => ⟨fun hd => ?_, fun hd hsrc => ?_, fun c hd hsrc hfit => ?_⟩,
    fun s p r i c ht hn hd hsrc hfit => ?_⟩
  · exact ht.refused (draftOnly_refused hn hd).2.2.2
  · exact ht.refused (activate_unsourced hn hd hsrc)
  · exact ht.refused ((activate_sourced hn hd hsrc).trans (if_pos (by rw [hfit]; rfl)))
  · have checks := activate_sourced hn hd hsrc
    simp only [hfit, Bool.not_true, Bool.false_eq_true, if_false] at checks
    refine ⟨fun hl hno hm => ht.done (checks.trans ?_), fun hused => ht.refused (checks.trans ?_),
      fun hl hno hc => ht.refused (checks.trans ?_), fun hl hno hc hg => ht.refused (checks.trans ?_)⟩
    · rw [hl, otherActive_false.mpr hno, hm.withClockAndBacklog_eq, Account.intoService_of_source hsrc]; rfl
    · by_cases hl : (s.channel c).link = none
      · have other : otherActive s i (s.account i).key = true :=
          Bool.eq_true_of_not_eq_false fun hno =>
            hused.elim (absurd hl) (absurd (otherActive_false.mp hno))
        simp [hl, other]
      · simp [Option.isSome_iff_ne_none.mpr hl]
    · rw [hl, otherActive_false.mpr hno, withClockAndBacklog_held hc]; rfl
    · rw [hl, otherActive_false.mpr hno, withClockAndBacklog_backlog hc hg]; rfl

/-! ## AMEND (01 R21) -/

/-- A successor goes into service on the source channel of the account it succeeds. -/
theorem Account.succeed_eq_intoService {a : Account} {c : ChannelNo} (hsrc : a.source = some c) (succ : Account)
    (h : HalfHourStamp) : succ.succeed a h = succ.intoService h c Mark.permitAmended.bit := by
  rw [Account.succeed, hsrc]; rfl

section
variable {r : Request} {s : State} {i j : SlotNo} {c : ChannelNo}

theorem amend_unnamed (hn : NamesAccount r s i) (hj : successorArg r i = none) :
    performAmend r s = .refused .argument := by
  rw [performAmend, hn.withTarget_eq, hj]

/-- With a successor named, AMEND goes on to the states and keys of the two accounts. -/
theorem amend_named (hn : NamesAccount r s i) (hj : successorArg r i = some j) :
    performAmend r s =
      if (s.account i).state ≠ .active then .refused .state
      else if (s.account j).state ≠ .draft then .refused .state
      else if !succeeds (s.account j) (s.account i) then .refused .argument
      else withClockAndBacklog s (
        .done [revWord ((s.account i).cfgRev + 1), revWord ((s.account j).cfgRev + 1), channelWord (s.account i).source,
            (pendingHalfHour s.clock).word]
          (((s.setAccount i ((s.account i).freeze (pendingHalfHour s.clock))).setAccount j
            ((s.account j).succeed (s.account i) (pendingHalfHour s.clock))).setLinkOf (s.account i).source (some j))) := by
  rw [performAmend, hn.withTarget_eq, hj]
  rfl

theorem amend_done (hn : NamesAccount r s i) (hj : successorArg r i = some j) (ha : (s.account i).state = .active)
    (hb : (s.account j).state = .draft) (hs : succeeds (s.account j) (s.account i) = true) (hm : LinksMayChange s)
    (hsrc : (s.account i).source = some c) :
    performAmend r s =
      .done [revWord ((s.account i).cfgRev + 1), revWord ((s.account j).cfgRev + 1), num c, (pendingHalfHour s.clock).word]
        (((s.setAccount i ((s.account i).freeze (pendingHalfHour s.clock))).setAccount j
          ((s.account j).intoService (pendingHalfHour s.clock) c Mark.permitAmended.bit)).setLink c (some j)) := by
  rw [amend_named hn hj, if_neg (not_not.mpr ha), if_neg (not_not.mpr hb), hs, hm.withClockAndBacklog_eq,
    Account.succeed_eq_intoService hsrc, hsrc]
  rfl

end

/-- Settles O36: the checks in order, then the effect. -/
theorem amendHandsChannelOver : Obligations.AmendHandsChannelOver := by
  refine ⟨fun s p r i ht hn => ⟨fun harg => ?_, fun j harg hne => ?_⟩, ?_⟩
  · exact ht.refused (amend_unnamed hn (successorArg_none harg))
  · have checks := amend_named hn (successorArg_of harg hne)
    refine ⟨fun hstate => ht.refused (checks.trans ?_), fun ha hb hs => ht.refused (checks.trans ?_),
      fun ha hb hs hc => ht.refused (checks.trans ?_), fun ha hb hs hc hg => ht.refused (checks.trans ?_)⟩
    · by_cases ha : (s.account i).state = .active
      · rw [if_neg (not_not.mpr ha), if_pos (hstate.resolve_left (not_not.mpr ha))]
      · rw [if_pos ha]
    · simp [ha, hb, Bool.eq_false_iff.mpr (mt succeeds_iff.mp hs)]
    · simp [ha, hb, succeeds_iff.mpr hs, withClockAndBacklog_held hc]
    · simp [ha, hb, succeeds_iff.mpr hs, withClockAndBacklog_backlog hc hg]
  · intro s p r i j c ht hn harg hne ha hsrc hb hst hsub hed hno hm
    exact ht.done (amend_done hn (successorArg_of harg hne) ha hb (succeeds_iff.mpr ⟨hst, hsub, hed, hno⟩) hm hsrc)

/-! ## REASSIGN and RETIRE (01 R23, R24) -/

/-- An account with a current side moves to another channel with ANALYZER_CHANGED added to that side. -/
theorem Account.reassigned_of_current {a : Account} {side : CurrentSide} (hcur : a.current = some side) (c : ChannelNo) :
    a.reassigned c = { a with source := some c, current := some (side.addMark .analyzerChanged) }.revised := by
  rw [Account.reassigned, hcur]; rfl

section
variable {r : Request} {s : State} {i : SlotNo} {c old : ChannelNo}

theorem reassign_unnamed (hn : NamesAccount r s i) (hc : r.channelArg 1 = none) :
    performReassign r s = .refused .argument := by
  rw [performReassign, hn.withTarget_eq, hc]

/-- With a channel named, REASSIGN goes on to the account's state and the channel. -/
theorem reassign_named (hn : NamesAccount r s i) (hc : r.channelArg 1 = some c) :
    performReassign r s =
      if (s.account i).state ≠ .active then .refused .state
      else if !fits (s.channel c) (s.account i) then .refused .argument
      else if (s.channel c).link.isSome then .refused .inUse
      else withClockAndBacklog s (
        .done [revWord ((s.account i).cfgRev + 1), channelWord (s.account i).source, num c,
            (pendingHalfHour s.clock).word]
          (((s.setAccount i ((s.account i).reassigned c)).setLinkOf (s.account i).source none).setLink c (some i))) := by
  rw [performReassign, hn.withTarget_eq, hc]
  rfl

theorem reassign_done (hn : NamesAccount r s i) (hc : r.channelArg 1 = some c) (ha : (s.account i).state = .active)
    (hf : fits (s.channel c) (s.account i) = true) (hl : (s.channel c).link = none) (hm : LinksMayChange s)
    (hsrc : (s.account i).source = some old) :
    performReassign r s =
      .done [revWord ((s.account i).cfgRev + 1), num old, num c, (pendingHalfHour s.clock).word]
        (((s.setAccount i ((s.account i).reassigned c)).setLink old none).setLink c (some i)) := by
  rw [reassign_named hn hc, if_neg (not_not.mpr ha), hf, hl, hm.withClockAndBacklog_eq, hsrc]
  rfl

theorem retire_named (hn : NamesAccount r s i) :
    performRetire r s =
      if (s.account i).state ≠ .active then .refused .state
      else withClockAndBacklog s (
        .done [revWord ((s.account i).cfgRev + 1), channelWord (s.account i).source, (pendingHalfHour s.clock).word]
          ((s.setAccount i ((s.account i).freeze (pendingHalfHour s.clock))).setLinkOf (s.account i).source none)) := by
  rw [performRetire, hn.withTarget_eq]
  rfl

theorem retire_done (hn : NamesAccount r s i) (ha : (s.account i).state = .active) (hm : LinksMayChange s)
    (hsrc : (s.account i).source = some c) :
    performRetire r s =
      .done [revWord ((s.account i).cfgRev + 1), num c, (pendingHalfHour s.clock).word]
        ((s.setAccount i ((s.account i).freeze (pendingHalfHour s.clock))).setLink c none) := by
  rw [retire_named hn, if_neg (not_not.mpr ha), hm.withClockAndBacklog_eq, hsrc]
  rfl

end

/-- Settles O37: the checks of both requests in order, then their effects. -/
theorem reassignAndRetire : Obligations.ReassignAndRetire := by
  refine ⟨fun s p r i ht hn => ⟨fun harg => ?_, fun c harg => ?_⟩, fun s p r i ht hn => ?_, ?_, ?_⟩
  · exact ht.refused (reassign_unnamed hn (channelArg_none harg))
  · have checks := reassign_named hn (channelArg_of harg)
    refine ⟨fun ha => ht.refused (checks.trans (if_pos ha)), fun ha hf => ht.refused (checks.trans ?_),
      fun ha hf hl => ht.refused (checks.trans ?_), fun ha hf hl hc => ht.refused (checks.trans ?_),
      fun ha hf hl hc hg => ht.refused (checks.trans ?_)⟩
    · simp [ha, Bool.eq_false_iff.mpr (mt fits_iff.mp hf)]
    · simp [ha, fits_iff.mpr hf, Option.isSome_iff_ne_none.mpr hl]
    · simp [ha, fits_iff.mpr hf, hl, withClockAndBacklog_held hc]
    · simp [ha, fits_iff.mpr hf, hl, withClockAndBacklog_backlog hc hg]
  · have checks := retire_named hn
    refine ⟨fun ha => ht.refused (checks.trans (if_pos ha)), fun ha hc => ht.refused (checks.trans ?_),
      fun ha hc hg => ht.refused (checks.trans ?_)⟩
    · rw [if_neg (not_not.mpr ha), withClockAndBacklog_held hc]
    · rw [if_neg (not_not.mpr ha), withClockAndBacklog_backlog hc hg]
  · intro s p r i old c side ht hn harg ha hsrc hcur hf hl hm
    have effect := reassign_done hn (channelArg_of harg) ha hf hl hm hsrc
    rw [Account.reassigned_of_current hcur] at effect
    exact ht.done effect
  · intro s p r i c ht hn ha hsrc hm
    exact ht.done (retire_done hn ha hm hsrc)

/-! ## CERTIFY (01 R26, 08 R153) -/

section
variable {r : Request} {s : State} {i : SlotNo}

theorem certify_held (hn : NamesAccount r s i) {c : ClosedSide} (hc : (s.account i).closed = some c)
    (hs : (s.account i).state ≠ .lapsed) :
    performCertify r s = .done [num c.yearNo, num (s.account i).state.number, num 0]
      (s.setAccount i { s.account i with closed := none }) := by
  rw [performCertify, hn.withTarget_eq, hc]
  exact if_neg hs

theorem certify_lapsed (hn : NamesAccount r s i) {c : ClosedSide} (hc : (s.account i).closed = some c)
    (hs : (s.account i).state = .lapsed) :
    performCertify r s = .done [num c.yearNo, num AccountState.free.number, num (s.episodes.countP (Episode.ofSlot i))]
      ((removeEpisodesOf i s).setAccount i .free) := by
  rw [performCertify, hn.withTarget_eq, hc]
  exact if_pos hs

theorem certify_empty (hn : NamesAccount r s i) (hc : (s.account i).closed = none) :
    performCertify r s = .refused .state := by
  rw [performCertify, hn.withTarget_eq, hc]

end

/-- Settles O38: the three cases of the closed side. -/
theorem certifyEmptiesClosedSide : Obligations.CertifyEmptiesClosedSide := by
  intro s p r i ht hn
  refine ⟨fun c hc hs => ht.done (certify_held hn hc hs), fun c hc hs => ?_, fun hc => ht.refused (certify_empty hn hc)⟩
  rw [account_reset, ← List.countP_eq_length_filter]
  exact ht.done (certify_lapsed hn hc hs)

/-! # The absorption of a RESULT entry (07 R120, R124, R125, 08 R144, R145) and the statement about it. -/

/-! ## An absorption with nothing ahead -/

theorem Absorbs.absorbHead_eq {s : State} {e : Entry} (h : Absorbs s e) (effect : State → State) :
    absorbHead effect s = headGone (effect s) := by
  rw [absorbHead, h.2.completeEarlier_eq]; rfl

theorem Absorbs.exec_result {s : State} {e : ResultEntry} (h : Absorbs s (.result e)) :
    exec .resultAbsorption s = .next (headGone (absorbResult e s)) := by
  show execResultAbsorption s = _
  rw [← h.absorbHead_eq, execResultAbsorption, h.1]

/-! ## The current side of the account -/

/-- The internal flag's counting on the account that has just been counted (07 R125). -/
theorem absorbInternal_setSide (e : ResultEntry) (s : State) (a : Account) (c : CurrentSide) :
    absorbInternal e (s.setAccount e.slot (a.withSide c)) = s.setAccount e.slot (a.withSide (internalNoted e c)) := by
  unfold absorbInternal internalNoted
  split
  · rw [updCurrent_eq (c := c) (by rw [account_setAccount_self]; rfl), setAccount_setAccount, account_setAccount_self]
    rfl
  · rfl

/-- Without a current side the entry is not counted (assumption 18). -/
theorem absorbResult_sideless {e : ResultEntry} {s : State} (h : (s.account e.slot).current = none) :
    absorbResult e s = s := by
  simp [absorbResult, h]

/-- With a current side the entry is counted by its class, then by its internal flag. -/
theorem absorbResult_sided {e : ResultEntry} {s : State} {c : CurrentSide} (h : (s.account e.slot).current = some c) :
    absorbResult e s = absorbInternal e (absorbClass e s) := by
  simp [absorbResult, h]

/-- A class that only counts: the account's side is counted, then the internal flag. -/
theorem absorbResult_counted {e : ResultEntry} {s : State} {c : CurrentSide} (h : (s.account e.slot).current = some c)
    {f : CurrentSide → CurrentSide} (hf : absorbClass e s = s.updCurrent e.slot f) :
    absorbResult e s = s.setAccount e.slot ((s.account e.slot).withSide (internalNoted e (f c))) := by
  rw [absorbResult_sided h, hf, updCurrent_eq h]
  exact absorbInternal_setSide ..

/-! ## The one OPEN episode of an account (08 R144, R145) -/

/-- The episodes after the OPEN ones of a subject have ended. -/
def endedEpisodes (u : Subject) (stamp : HalfHourStamp) (l : List Episode) : List Episode :=
  l.filterMap fun x =>
    if x.isOpen && x.subject == u then
      if x.acknowledged then none else some { x with ended := some stamp }
    else some x

/-- An ended episode counted into a current side (08 R145). -/
def CurrentSide.fold (c : CurrentSide) (ep : Episode) : CurrentSide :=
  { c with year := { c.year with
      episodesEnded := c.year.episodesEnded + 1
      longestEpisode := max c.year.longestEpisode ep.length } }

/-- Ending the one OPEN episode of an account folds it into the current side and removes it or gives it its end. -/
theorem endEpisodes_single {s : State} {i : SlotNo} {ep : Episode} {c : CurrentSide}
    (hep : s.episodes.filter (fun x => x.isOpen && x.subject == .exceedance i) = [ep])
    (hc : (s.account i).current = some c) (stamp : HalfHourStamp) :
    endEpisodes (· == .exceedance i) stamp s =
      { s.setAccount i ((s.account i).withSide (c.fold ep)) with
        episodes := endedEpisodes (.exceedance i) stamp s.episodes } := by
  have listed : ep ∈ s.episodes.filter (fun x => x.isOpen && x.subject == .exceedance i) := hep ▸ List.mem_singleton_self ep
  have subject : ep.subject = .exceedance i := by
    have := List.of_mem_filter listed
    simpa using (Bool.and_eq_true_iff.mp this).2
  have folded : foldEpisode ep s = s.setAccount i ((s.account i).withSide (c.fold ep)) := by
    unfold foldEpisode
    rw [subject]
    exact updCurrent_eq hc _
  unfold endEpisodes
  dsimp only
  rw [hep, List.foldl_cons, List.foldl_nil, folded]
  rfl

/-- An EXCLUDED entry with the account's one OPEN episode: the side is counted, the episode ends. -/
theorem absorbResult_excluded_open {e : ResultEntry} {s : State} {c : CurrentSide} {ep : Episode}
    (hcls : e.cls = .excluded)
    (hep : s.episodes.filter (fun x => x.isOpen && x.subject == .exceedance e.slot) = [ep])
    (hc : (s.account e.slot).current = some c) :
    absorbResult e s =
      { s.setAccount e.slot ((s.account e.slot).withSide (internalNoted e ((countExcluded c).fold ep))) with
        episodes := endedEpisodes (.exceedance e.slot) e.stamp s.episodes } := by
  have counted : absorbClass e s =
      { s.setAccount e.slot ((s.account e.slot).withSide ((countExcluded c).fold ep)) with
        episodes := endedEpisodes (.exceedance e.slot) e.stamp s.episodes } := by
    unfold absorbClass
    rw [hcls]
    dsimp only
    rw [updCurrent_eq hc, endEpisodes_single (c := countExcluded c) (by exact hep) (by rw [account_setAccount_self]),
      setAccount_setAccount, account_setAccount_self]
    rfl
  rw [absorbResult_sided hc, counted]
  exact absorbInternal_setSide e { s with episodes := endedEpisodes (.exceedance e.slot) e.stamp s.episodes } _ _

/-- Settles O21: class by class. -/
theorem otherResultAbsorbed : Obligations.OtherResultAbsorbed := by
  intro s e h
  refine ⟨fun raw c hcls hab hc => ?abnormal, fun c hcls hc => ?invalid, fun c hcls hno hc => ?excluded,
    fun c ep hcls hep hc => ?excludedOpen, fun hc => ?sideless⟩
  case abnormal =>
    have counted : absorbClass e s = s.updCurrent e.slot countAbnormal := by simp only [absorbClass, hcls, hab]
    rw [h.exec_result, absorbResult_counted hc counted]; rfl
  case invalid =>
    have counted : absorbClass e s = s.updCurrent e.slot countInvalid := by simp only [absorbClass, hcls]
    rw [h.exec_result, absorbResult_counted hc counted]; rfl
  case excluded =>
    have counted : absorbClass e s = s.updCurrent e.slot countExcluded := by
      simp only [absorbClass, hcls]
      exact endEpisodes_none (no_open hno)
    rw [h.exec_result, absorbResult_counted hc counted]; rfl
  case excludedOpen =>
    refine ⟨_, h.exec_result, ?_⟩
    rw [absorbResult_excluded_open hcls hep hc]
    exact ⟨account_setAccount_self .., fun j hj => account_setAccount_ne _ _ _ _ hj, rfl, rfl⟩
  case sideless =>
    rw [h.exec_result, absorbResult_sideless hc]

/-! # The account and link laws (01 R2, R3, R7) through every step: a change of one account or one link at a time, then
the requests, the absorptions and the accesses. -/

/-- The laws of the Account Table and of the links together. -/
def TableLaws (s : State) : Prop := AccountLaw s ∧ LinkLaw s

/-- Both laws read the accounts and the channel records only. -/
theorem TableLaws.of_tables {s t : State} (h : TableLaws s) (ha : t.accounts = s.accounts) (hc : t.channels = s.channels) :
    TableLaws t := by
  have account : t.account = s.account := funext fun i => congrArg (·.get i) ha
  have channel : t.channel = s.channel := funext fun c => congrArg (·.get c) hc
  simpa only [TableLaws, AccountLaw, LinkLaw, account, channel] using h

/-! ## An account that keeps its place -/

/-- What the laws need of an account that stays in its slot: its key, FREE or not, ACTIVE or not, the source channel of an
ACTIVE one, and the shape of its state. -/
structure Account.Follows (a b : Account) : Prop where
  key : b.key = a.key
  free : b.state = .free ↔ a.state = .free
  active : b.state = .active ↔ a.state = .active
  source : a.state = .active → b.source = a.source
  shaped : a.shaped → b.shaped

theorem Account.Follows.refl (a : Account) : a.Follows a := ⟨rfl, Iff.rfl, Iff.rfl, fun _ => rfl, id⟩

theorem Account.Follows.trans {a b c : Account} (h : a.Follows b) (h' : b.Follows c) : a.Follows c where
  key := h'.key.trans h.key
  free := h'.free.trans h.free
  active := h'.active.trans h.active
  source := fun ha => (h'.source (h.active.mpr ha)).trans (h.source ha)
  shaped := h'.shaped ∘ h.shaped

/-- Another current side in place of the one present, or none where there was none. -/
theorem Account.follows_side (a : Account) {c : Option CurrentSide} (hc : c.isSome = a.current.isSome) :
    a.Follows { a with current := c } where
  key := rfl
  free := Iff.rfl
  active := Iff.rfl
  source := fun _ => rfl
  shaped := fun h => by
    have absent : a.current = none → c = none := fun hn => by simpa [hn] using hc
    unfold Account.shaped at h ⊢
    cases hs : a.state <;> simp only [hs] at h ⊢
    case free =>
      subst h
      rw [absent rfl]; rfl
    case draft =>
      obtain ⟨hsub, hact, hfro, hcur, hclo⟩ := h
      exact ⟨hsub, hact, hfro, absent hcur, hclo⟩
    case active | frozen => rw [hc]; exact h
    case lapsed =>
      obtain ⟨hsub, hsrc, hact, hfro, hcur, hclo⟩ := h
      exact ⟨hsub, hsrc, hact, hfro, absent hcur, hclo⟩

/-- Every account keeps its place. -/
structure AccountsFollow (s t : State) : Prop where
  slot : ∀ i, (s.account i).Follows (t.account i)

theorem AccountsFollow.trans {s t u : State} (h : AccountsFollow s t) (h' : AccountsFollow t u) : AccountsFollow s u :=
  ⟨fun i => (h.slot i).trans (h'.slot i)⟩

theorem AccountsFollow.of_accounts {s t : State} (h : t.accounts = s.accounts) : AccountsFollow s t := ⟨fun i => by
  have : t.account i = s.account i := congrArg (·.get i) h
  rw [this]; exact .refl _⟩

theorem AccountsFollow.foldl {γ : Type} {f : State → γ → State} (h : ∀ s x, AccountsFollow s (f s x)) (l : List γ)
    (s : State) : AccountsFollow s (l.foldl f s) := by
  induction l generalizing s with
  | nil => exact .of_accounts rfl
  | cons x l ih => exact (h s x).trans (ih _)

theorem accountsFollow_setAccount {s : State} {i : SlotNo} {b : Account} (h : (s.account i).Follows b) :
    AccountsFollow s (s.setAccount i b) := ⟨fun j => by
  rw [account_setAccount]
  split
  · next hij => rw [← hij]; exact h
  · exact .refl _⟩

theorem accountsFollow_updCurrent (s : State) (i : SlotNo) (f : CurrentSide → CurrentSide) :
    AccountsFollow s (s.updCurrent i f) :=
  accountsFollow_setAccount (Account.follows_side _ Option.isSome_map)

theorem TableLaws.follow {s t : State} (h : TableLaws s) (hf : AccountsFollow s t) (hc : t.channels = s.channels) :
    TableLaws t := by
  obtain ⟨⟨shape, keys, one⟩, named, linked⟩ := h
  have channel : t.channel = s.channel := funext fun c => congrArg (·.get c) hc
  refine ⟨⟨fun i => (hf.slot i).shaped (shape i), fun i j hij hi hj => ?_, fun i j hij hi hj hst => ?_⟩, fun c i hl => ?_,
    fun i hi => ?_⟩
  · rw [(hf.slot i).key, (hf.slot j).key]
    exact keys i j hij (mt (hf.slot i).free.mpr hi) (mt (hf.slot j).free.mpr hj)
  · rw [(hf.slot i).key, (hf.slot j).key] at *
    exact one i j hij ((hf.slot i).active.mp hi) ((hf.slot j).active.mp hj) hst
  · rw [channel] at hl ⊢
    obtain ⟨hact, hsrc, hfit⟩ := named c i hl
    refine ⟨(hf.slot i).active.mpr hact, ((hf.slot i).source hact).trans hsrc, ?_⟩
    rw [fits_iff] at hfit ⊢
    rwa [(hf.slot i).key]
  · rw [channel, (hf.slot i).source ((hf.slot i).active.mp hi)]
    exact linked i ((hf.slot i).active.mp hi)

/-! ## One account replaced -/

/-- One account replaced by one of the right shape that shares no key and no service with another. -/
theorem AccountLaw.setAccount {s : State} {i : SlotNo} {b : Account} (h : AccountLaw s) (hb : b.shaped)
    (hkey : b.state ≠ .free → ∀ j, j ≠ i → (s.account j).state ≠ .free → (s.account j).key ≠ b.key)
    (hone : b.state = .active → ∀ j, j ≠ i → (s.account j).state = .active → (s.account j).key.stack = b.key.stack →
      (s.account j).key.substance ≠ b.key.substance) : AccountLaw (s.setAccount i b) := by
  obtain ⟨shape, keys, one⟩ := h
  refine ⟨fun j => ?_, fun j k hjk => ?_, fun j k hjk => ?_⟩
  · rw [account_setAccount]
    split
    · exact hb
    · exact shape j
  · by_cases hj : j = i
    · subst hj
      rw [account_setAccount_self, account_setAccount_ne _ _ _ _ hjk.symm]
      exact fun hjf hkf => (hkey hjf k hjk.symm hkf).symm
    · rw [account_setAccount_ne _ _ _ _ hj]
      by_cases hk : k = i
      · subst hk
        rw [account_setAccount_self]
        exact fun hjf hkf => hkey hkf j hjk hjf
      · rw [account_setAccount_ne _ _ _ _ hk]
        exact keys j k hjk
  · by_cases hj : j = i
    · subst hj
      rw [account_setAccount_self, account_setAccount_ne _ _ _ _ hjk.symm]
      exact fun hja hka hst => (hone hja k hjk.symm hka hst.symm).symm
    · rw [account_setAccount_ne _ _ _ _ hj]
      by_cases hk : k = i
      · subst hk
        rw [account_setAccount_self]
        exact fun hja hka hst => hone hka j hjk hja hst
      · rw [account_setAccount_ne _ _ _ _ hk]
        exact one j k hjk

/-- An account not FREE replaced by one of its key. -/
theorem AccountLaw.setAccount_sameKey {s : State} {i : SlotNo} {b : Account} (h : AccountLaw s) (hb : b.shaped)
    (hkey : b.key = (s.account i).key) (hfree : (s.account i).state ≠ .free)
    (hone : b.state = .active → ∀ j, j ≠ i → (s.account j).state = .active → (s.account j).key.stack = b.key.stack →
      (s.account j).key.substance ≠ b.key.substance) : AccountLaw (s.setAccount i b) := by
  refine h.setAccount hb (fun _ j hj hjf => ?_) hone
  rw [hkey]
  exact h.2.1 j i hj hjf hfree

/-- No other account is ACTIVE for the stack and the substance of an ACTIVE one. -/
theorem AccountLaw.only_active {s : State} {i : SlotNo} (h : AccountLaw s) (hi : (s.account i).state = .active) (j : SlotNo)
    (hj : j ≠ i) (hja : (s.account j).state = .active) (hst : (s.account j).key.stack = (s.account i).key.stack) :
    (s.account j).key.substance ≠ (s.account i).key.substance :=
  h.2.2 j i hj hja hi hst

/-! ## One link set or cleared -/

/-- An account not ACTIVE replaced by one not ACTIVE: no link names it. -/
theorem LinkLaw.setAccount_idle {s : State} {i : SlotNo} {b : Account} (h : LinkLaw s)
    (ha : (s.account i).state ≠ .active) (hb : b.state ≠ .active) : LinkLaw (s.setAccount i b) := by
  obtain ⟨named, linked⟩ := h
  refine ⟨fun c j hl => ?_, fun j hj => ?_⟩
  · have hji : j ≠ i := by rintro rfl; exact ha (named c j hl).1
    rw [account_setAccount_ne _ _ _ _ hji]
    exact named c j hl
  · rw [account_setAccount] at hj ⊢
    split at hj
    · exact absurd hj hb
    · next hij => rw [if_neg hij]; exact linked j hj

/-- The account of a link leaves service and the link is cleared. -/
theorem LinkLaw.unlink {s : State} {i : SlotNo} {c : ChannelNo} {b : Account} (h : LinkLaw s)
    (hl : (s.channel c).link = some i) (hb : b.state ≠ .active) : LinkLaw ((s.setAccount i b).setLink c none) := by
  obtain ⟨named, linked⟩ := h
  refine ⟨fun d j hd => ?_, fun j hj => ?_⟩
  · rw [channel_setLink] at hd ⊢
    split at hd
    · cases hd
    next hcd =>
    rw [if_neg hcd]
    obtain ⟨hact, hsrc, hfit⟩ := named d j hd
    have hji : j ≠ i := by
      rintro rfl
      exact hcd (Option.some.inj ((named c j hl).2.1.symm.trans hsrc))
    rw [account_setLink_frame, account_setAccount_ne _ _ _ _ hji]
    exact ⟨hact, hsrc, hfit⟩
  · rw [account_setLink_frame, account_setAccount] at hj ⊢
    split at hj
    · exact absurd hj hb
    next hij =>
    obtain ⟨d, hsrc, hd⟩ := linked j hj
    have hcd : c ≠ d := by
      rintro rfl
      exact hij (Option.some.inj (hl.symm.trans hd))
    rw [if_neg hij]
    refine ⟨d, hsrc, ?_⟩
    rw [channel_setLink, if_neg hcd]
    exact hd

/-- An account not ACTIVE goes into service on an unlinked channel that fits it. -/
theorem LinkLaw.link {s : State} {i : SlotNo} {c : ChannelNo} {b : Account} (h : LinkLaw s)
    (ha : (s.account i).state ≠ .active) (hl : (s.channel c).link = none) (hb : b.state = .active)
    (hsrc : b.source = some c) (hfit : fits (s.channel c) b = true) :
    LinkLaw ((s.setAccount i b).setLink c (some i)) := by
  obtain ⟨named, linked⟩ := h
  refine ⟨fun d j hd => ?_, fun j hj => ?_⟩
  · rw [channel_setLink] at hd ⊢
    rw [account_setLink_frame]
    split at hd
    · next hcd =>
      cases hd
      rw [if_pos hcd, account_setAccount_self]
      exact ⟨hb, hcd ▸ hsrc, hfit⟩
    · next hcd =>
      have hji : j ≠ i := by rintro rfl; exact ha (named d j hd).1
      rw [if_neg hcd, account_setAccount_ne _ _ _ _ hji]
      exact named d j hd
  · rw [account_setLink_frame, account_setAccount] at hj ⊢
    split at hj
    · next hij =>
      refine ⟨c, (if_pos hij).symm ▸ hsrc, ?_⟩
      rw [channel_setLink, if_pos rfl, hij]
    · next hij =>
      obtain ⟨d, hdsrc, hd⟩ := linked j hj
      have hcd : c ≠ d := by
        rintro rfl
        cases hl.symm.trans hd
      refine ⟨d, (if_neg hij).symm ▸ hdsrc, ?_⟩
      rw [channel_setLink, if_neg hcd]
      exact hd

/-- A channel record replaced with its link kept, and with its stack, its substance and its use kept while it is linked. -/
theorem LinkLaw.setChannel {s : State} {c : ChannelNo} {ch : Channel} (h : LinkLaw s)
    (hl : ch.link = (s.channel c).link)
    (hfit : ch.link.isSome → ∀ a, fits (s.channel c) a = true → fits ch a = true) : LinkLaw (s.setChannel c ch) := by
  obtain ⟨named, linked⟩ := h
  refine ⟨fun d j hd => ?_, fun j hj => ?_⟩
  · rw [channel_setChannel] at hd ⊢
    split at hd
    · next hcd =>
      subst hcd
      obtain ⟨hact, hsrc, hfits⟩ := named c j (hl ▸ hd)
      rw [if_pos rfl]
      exact ⟨hact, hsrc, hfit (by rw [hd]; rfl) _ hfits⟩
    · next hcd => rw [if_neg hcd]; exact named d j hd
  · obtain ⟨d, hsrc, hd⟩ := linked j hj
    refine ⟨d, hsrc, ?_⟩
    rw [channel_setChannel]
    split
    · next hcd => subst hcd; exact hl.trans hd
    · exact hd

/-! # What a request, an absorption and a step lead to: the rules by which a property of the next state is shown, and the
account and link laws by these rules. -/

/-! ## What a reply leads to -/

/-- A property of the changed state of a request answered with DONE; a refusal and a read change no table (10 R171). -/
def Reply.Leads (P : State → Prop) : Reply → Prop
  | .done _ t => P t
  | .refused _ | .read _ _ => True

theorem Reply.Leads.mono {P Q : State → Prop} {reply : Reply} (h : reply.Leads P) (hPQ : ∀ t, P t → Q t) :
    reply.Leads Q := by
  cases reply with
  | done v t => exact hPQ t h
  | refused o => trivial
  | read v snap => trivial

/-- Behind a check that refuses, what the check lets pass counts. -/
theorem Reply.leads_check {P : State → Prop} {p : Prop} [Decidable p] {o : ReqOutcome} {x : Reply} (h : ¬ p → x.Leads P) :
    (if p then .refused o else x : Reply).Leads P := by
  split
  · trivial
  · next hp => exact h hp

theorem withTarget_leads {P : State → Prop} {r : Request} {s : State} {k : SlotNo → Account → Reply}
    (h : ∀ i, (k i (s.account i)).Leads P) : (withTarget r s k).Leads P := by
  unfold withTarget
  split
  · trivial
  · split
    · exact Reply.leads_check fun _ => h _
    · exact h _

theorem withChannel_leads {P : State → Prop} {r : Request} {s : State} {k : ChannelNo → Channel → Reply}
    (h : ∀ c, (k c (s.channel c)).Leads P) : (withChannel r s k).Leads P := by
  unfold withChannel
  split
  · trivial
  · exact h _

theorem withClockAndBacklog_leads {P : State → Prop} {s : State} {k : Reply} (h : k.Leads P) :
    (withClockAndBacklog s k).Leads P :=
  Reply.leads_check fun _ => Reply.leads_check fun _ => h

/-! ## The shapes of accounts (01 R2) -/

theorem Account.shaped_draft {a : Account} (h : a.state = .draft) :
    a.shaped ↔ a.key.substance.1 ≤ 14 ∧ a.activatedAt = none ∧ a.frozenAt = none ∧ a.current = none ∧ a.closed = none := by
  rw [Account.shaped, h]

theorem Account.shaped_active {a : Account} (h : a.state = .active) :
    a.shaped ↔ a.key.substance.1 ≤ 14 ∧ a.source.isSome ∧ a.activatedAt.isSome ∧ a.frozenAt = none ∧ a.current.isSome := by
  rw [Account.shaped, h]

theorem Account.shaped_frozen {a : Account} (h : a.state = .frozen) :
    a.shaped ↔ a.key.substance.1 ≤ 14 ∧ a.source.isSome ∧ a.activatedAt.isSome ∧ a.frozenAt.isSome ∧ a.current.isSome := by
  rw [Account.shaped, h]

theorem Account.shaped_lapsed {a : Account} (h : a.state = .lapsed) :
    a.shaped ↔ a.key.substance.1 ≤ 14 ∧ a.source.isSome ∧ a.activatedAt.isSome ∧ a.frozenAt.isSome ∧ a.current = none ∧
      a.closed.isSome := by
  rw [Account.shaped, h]

/-- A new cfg_rev of an account that is not FREE (01 R8). -/
theorem Account.follows_revised {a : Account} (h : a.state ≠ .free) : a.Follows a.revised where
  key := rfl
  free := Iff.rfl
  active := Iff.rfl
  source := fun _ => rfl
  shaped := fun hs => by
    unfold Account.shaped at hs ⊢
    have state : a.revised.state = a.state := rfl
    rw [state]
    cases ha : a.state
    case free => exact absurd ha h
    all_goals rw [ha] at hs; exact hs

/-- A DRAFT account with another source channel, other terms or another cfg_rev (01 R18, R19). -/
theorem Account.follows_draft {a : Account} (h : a.state = .draft) (src : Option ChannelNo) (terms : Terms) (rev : Word16) :
    a.Follows { a with source := src, terms := terms, cfgRev := rev } where
  key := rfl
  free := Iff.rfl
  active := Iff.rfl
  source := fun ha => by rw [h] at ha; cases ha
  shaped := fun hs => (Account.shaped_draft (a := { a with source := src, terms := terms, cfgRev := rev }) h).mpr
    ((Account.shaped_draft h).mp hs)

/-- A HELD closed side emptied where the account is not LAPSED (01 R26). -/
theorem Account.follows_certified {a : Account} (h : a.state ≠ .lapsed) (hc : a.closed ≠ none) :
    a.Follows { a with closed := none } where
  key := rfl
  free := Iff.rfl
  active := Iff.rfl
  source := fun _ => rfl
  shaped := fun hs => by
    unfold Account.shaped at hs ⊢
    cases ha : a.state <;> simp only [ha] at hs ⊢
    case free => rw [hs] at hc; exact absurd rfl hc
    case draft => exact absurd hs.2.2.2.2 hc
    case active | frozen => exact hs
    case lapsed => exact absurd ha h

/-- An ACTIVE or FROZEN account whose year is closed (07 R132 to R134). -/
theorem Account.follows_closeYear {a : Account} {Y : Nat} (h : yearEndApplies a Y = true) (c : CurrentSide) :
    a.Follows (closeYearAccount a Y c) := by
  have state : a.state = .active ∨ a.state = .frozen := by
    simp only [yearEndApplies, Bool.and_eq_true, Bool.or_eq_true, beq_iff_eq] at h
    exact h.1.1
  rcases state with hact | hfro
  · have closed : closeYearAccount a Y c =
        { a with closed := some (closeSide a Y c), current := some (.fresh 1 0) } := by
      simp only [closeYearAccount, hact]
    rw [closed]
    exact ⟨rfl, Iff.rfl, Iff.rfl, fun _ => rfl, fun hs => by
      obtain ⟨hsub, hsrc, hat, hfr, -⟩ := (Account.shaped_active hact).mp hs
      exact (Account.shaped_active (a := { a with closed := some (closeSide a Y c), current := some (.fresh 1 0) })
        hact).mpr ⟨hsub, hsrc, hat, hfr, rfl⟩⟩
  · have closed : closeYearAccount a Y c =
        { a with state := .lapsed, closed := some (closeSide a Y c), current := none } := by
      simp only [closeYearAccount, hfro]
    rw [closed]
    refine ⟨rfl, by simp [hfro], by simp [hfro], fun _ => rfl, fun hs => ?_⟩
    obtain ⟨hsub, hsrc, hat, hfr, -⟩ := (Account.shaped_frozen hfro).mp hs
    exact (Account.shaped_lapsed rfl).mpr ⟨hsub, hsrc, hat, hfr, rfl, rfl⟩

/-! ## Entering and leaving service (01 R7, R20 to R24) -/

theorem setLink_setLink (s : State) (c : ChannelNo) (l l' : Option SlotNo) :
    (s.setLink c l).setLink c l' = s.setLink c l' := by
  unfold State.setLink
  rw [channel_setChannel, if_pos rfl]
  unfold State.setChannel put
  simp

theorem setLink_setAccount (s : State) (c : ChannelNo) (l : Option SlotNo) (i : SlotNo) (a : Account) :
    (s.setLink c l).setAccount i a = (s.setAccount i a).setLink c l := rfl

/-- An ACTIVE account is frozen and its link cleared. -/
theorem TableLaws.leave {s : State} {i : SlotNo} {c : ChannelNo} (hs : TableLaws s) (ha : (s.account i).state = .active)
    (hl : (s.channel c).link = some i) (h : HalfHourStamp) :
    TableLaws ((s.setAccount i ((s.account i).freeze h)).setLink c none) := by
  obtain ⟨hsub, hsrc, hat, -, hcur⟩ := (Account.shaped_active ha).mp (hs.1.1 i)
  have shape : ((s.account i).freeze h).shaped := (Account.shaped_frozen rfl).mpr ⟨hsub, hsrc, hat, rfl, hcur⟩
  exact ⟨hs.1.setAccount_sameKey shape rfl (by rw [ha]; nofun) nofun, hs.2.unlink hl nofun⟩

/-- A DRAFT account goes into service on an unlinked channel that fits it, the only one of its stack and substance. -/
theorem TableLaws.enter {s : State} {i : SlotNo} {c : ChannelNo} (hs : TableLaws s) (hd : (s.account i).state = .draft)
    (hl : (s.channel c).link = none) (hfit : fits (s.channel c) (s.account i) = true)
    (hno : otherActive s i (s.account i).key = false) (h : HalfHourStamp) (marks : MarkSet) :
    TableLaws ((s.setAccount i ((s.account i).intoService h c marks)).setLink c (some i)) := by
  obtain ⟨hsub, -, hfr, -⟩ := (Account.shaped_draft hd).mp (hs.1.1 i)
  have shape : ((s.account i).intoService h c marks).shaped :=
    (Account.shaped_active rfl).mpr ⟨hsub, rfl, rfl, hfr, rfl⟩
  exact ⟨hs.1.setAccount_sameKey shape rfl (by rw [hd]; nofun) fun _ => otherActive_false.mp hno,
    hs.2.link (by rw [hd]; nofun) hl rfl rfl hfit⟩

/-- An ACTIVE account moves to an unlinked channel that fits it. -/
theorem TableLaws.move {s : State} {i : SlotNo} {old c : ChannelNo} (hs : TableLaws s)
    (ha : (s.account i).state = .active) (hold : (s.channel old).link = some i) (hl : (s.channel c).link = none)
    (hfit : fits (s.channel c) (s.account i) = true) :
    TableLaws (((s.setAccount i ((s.account i).reassigned c)).setLink old none).setLink c (some i)) := by
  obtain ⟨hsub, -, hat, hfr, hcur⟩ := (Account.shaped_active ha).mp (hs.1.1 i)
  have shape : ((s.account i).reassigned c).shaped :=
    (Account.shaped_active (a := (s.account i).reassigned c) ha).mpr
      ⟨hsub, rfl, hat, hfr, Option.isSome_map.trans hcur⟩
  have distinct : old ≠ c := by
    rintro rfl
    cases hold.symm.trans hl
  refine ⟨hs.1.setAccount_sameKey shape rfl (by rw [ha]; nofun) fun _ => hs.1.only_active ha, ?_⟩
  -- For the links, a move is the account's leaving service followed by its entering it on the new channel.
  have left : LinkLaw ((s.setAccount i ((s.account i).freeze ⟨0, 0, 0⟩)).setLink old none) := hs.2.unlink hold nofun
  have back := left.link (i := i) (c := c) (b := (s.account i).reassigned c)
    (by rw [account_setLink_frame, account_setAccount_self]; nofun)
    (by rw [channel_setLink, if_neg distinct]; exact hl) ha rfl
    (by rw [channel_setLink, if_neg distinct]; exact hfit)
  rwa [setLink_setAccount, setAccount_setAccount] at back

/-! ## The requests of accounts -/

theorem lowest_some {n : Nat} {p : Fin n → Bool} {i : Fin n} (h : lowest p = some i) : p i = true :=
  List.find?_some h

theorem createAccount_tableLaws {s : State} (hs : TableLaws s) (r : Request) :
    (performCreateAccount r s).Leads TableLaws := by
  unfold performCreateAccount
  split
  · trivial
  next k hk =>
  refine Reply.leads_check fun hused => ?_
  split
  · trivial
  next i hi =>
  have hfree : (s.account i).state = .free := beq_iff_eq.mp (lowest_some hi)
  have shape : (draftAccount k).shaped := (Account.shaped_draft rfl).mpr ⟨keyArg_substance hk, rfl, rfl, rfl, rfl⟩
  exact ⟨hs.1.setAccount shape (fun _ j _ hj => keyTaken_false.mp (Bool.eq_false_iff.mpr hused) j hj) nofun,
    hs.2.setAccount_idle (by rw [hfree]; nofun) nofun⟩

theorem setLimits_tableLaws {s : State} (hs : TableLaws s) (r : Request) : (performSetLimits r s).Leads TableLaws := by
  refine withTarget_leads fun i => Reply.leads_check fun hd => ?_
  split
  · trivial
  · exact hs.follow (accountsFollow_setAccount (Account.follows_draft (not_not.mp hd) _ _ _)) rfl

theorem linkSource_tableLaws {s : State} (hs : TableLaws s) (r : Request) : (performLinkSource r s).Leads TableLaws := by
  refine withTarget_leads fun i => Reply.leads_check fun hd => ?_
  split
  · trivial
  · exact hs.follow (accountsFollow_setAccount (Account.follows_draft (not_not.mp hd) _ _ _)) rfl

theorem activate_tableLaws {s : State} (hs : TableLaws s) (r : Request) : (performActivate r s).Leads TableLaws := by
  refine withTarget_leads fun i => Reply.leads_check fun hd => ?_
  split
  · trivial
  next c hsrc =>
  refine Reply.leads_check fun hfit => Reply.leads_check fun hl => Reply.leads_check fun hno =>
    withClockAndBacklog_leads ?_
  exact hs.enter (not_not.mp hd) (by simpa using hl) (by simpa using hfit) (by simpa using hno) _ _

theorem amend_tableLaws {s : State} (hs : TableLaws s) (r : Request) : (performAmend r s).Leads TableLaws := by
  refine withTarget_leads fun i => ?_
  split
  · trivial
  next j hj =>
  refine Reply.leads_check fun ha => Reply.leads_check fun hb => Reply.leads_check fun hsucc =>
    withClockAndBacklog_leads ?_
  replace ha := not_not.mp ha
  replace hb := not_not.mp hb
  obtain ⟨hst, hsub, -, -⟩ := succeeds_iff.mp (by simpa using hsucc)
  obtain ⟨c, hsrc, hl⟩ := hs.2.2 i ha
  obtain ⟨-, -, hfit⟩ := hs.2.1 c i hl
  have distinct : j ≠ i := by
    rintro rfl
    cases ha.symm.trans hb
  have succ_fits : fits (s.channel c) (s.account j) = true := by
    rw [fits_iff] at hfit ⊢
    rwa [hst, hsub]
  show TableLaws (((s.setAccount i ((s.account i).freeze (pendingHalfHour s.clock))).setAccount j
    ((s.account j).succeed (s.account i) (pendingHalfHour s.clock))).setLinkOf (s.account i).source (some j))
  rw [Account.succeed_eq_intoService hsrc, hsrc]
  have left := hs.leave ha hl (pendingHalfHour s.clock)
  have account_left : ((s.setAccount i ((s.account i).freeze (pendingHalfHour s.clock))).setLink c none).account j =
      s.account j := account_setAccount_ne _ _ _ _ distinct
  have entered := left.enter (i := j) (c := c) (by rw [account_left]; exact hb)
    (by rw [channel_setLink, if_pos rfl]) (by rw [account_left, channel_setLink, if_pos rfl]; exact succ_fits)
    (by
      rw [account_left, otherActive_false]
      intro k _ hk hkst
      rw [account_setLink_frame] at hk hkst ⊢
      by_cases hki : k = i
      · rw [hki, account_setAccount_self] at hk
        cases hk
      · rw [account_setAccount_ne _ _ _ _ hki] at hk hkst ⊢
        rw [hsub]
        exact hs.1.only_active ha k hki hk (hkst.trans hst))
    (pendingHalfHour s.clock) Mark.permitAmended.bit
  rwa [account_left, setLink_setAccount, setLink_setLink] at entered

theorem reassign_tableLaws {s : State} (hs : TableLaws s) (r : Request) : (performReassign r s).Leads TableLaws := by
  refine withTarget_leads fun i => ?_
  split
  · trivial
  next c hc =>
  refine Reply.leads_check fun ha => Reply.leads_check fun hfit => Reply.leads_check fun hl =>
    withClockAndBacklog_leads ?_
  replace ha := not_not.mp ha
  obtain ⟨old, hsrc, hold⟩ := hs.2.2 i ha
  show TableLaws (((s.setAccount i ((s.account i).reassigned c)).setLinkOf (s.account i).source none).setLink c (some i))
  rw [hsrc]
  exact hs.move ha hold (by simpa using hl) (by simpa using hfit)

theorem retire_tableLaws {s : State} (hs : TableLaws s) (r : Request) : (performRetire r s).Leads TableLaws := by
  refine withTarget_leads fun i => Reply.leads_check fun ha => withClockAndBacklog_leads ?_
  replace ha := not_not.mp ha
  obtain ⟨c, hsrc, hl⟩ := hs.2.2 i ha
  show TableLaws ((s.setAccount i ((s.account i).freeze (pendingHalfHour s.clock))).setLinkOf (s.account i).source none)
  rw [hsrc]
  exact hs.leave ha hl _

/-- An account that is not ACTIVE gives up its slot. -/
theorem TableLaws.free {s : State} {i : SlotNo} (hs : TableLaws s) (h : (s.account i).state ≠ .active) :
    TableLaws (s.setAccount i .free) :=
  ⟨hs.1.setAccount rfl (fun hfree => absurd rfl hfree) nofun, hs.2.setAccount_idle h nofun⟩

theorem deleteDraft_tableLaws {s : State} (hs : TableLaws s) (r : Request) : (performDeleteDraft r s).Leads TableLaws := by
  refine withTarget_leads fun i => Reply.leads_check fun hd => ?_
  exact hs.free (by rw [not_not.mp hd]; nofun)

theorem certify_tableLaws {s : State} (hs : TableLaws s) (r : Request) : (performCertify r s).Leads TableLaws := by
  refine withTarget_leads fun i => ?_
  split
  · trivial
  next c hc =>
  split
  · next hlapsed => exact (hs.free (i := i) (by rw [hlapsed]; nofun)).of_tables rfl rfl
  · next hlapsed =>
    exact hs.follow (accountsFollow_setAccount (Account.follows_certified hlapsed (by rw [hc]; nofun))) rfl

theorem mark_tableLaws {s : State} (hs : TableLaws s) (r : Request) : (performMark r s).Leads TableLaws := by
  have marked : ∀ i c m, (s.account i).current = some c → (s.account i).state ≠ .free →
      TableLaws (s.setAccount i ((s.account i).marked c m)) := fun i c m hc hfree =>
    hs.follow (accountsFollow_setAccount
      ((Account.follows_side _ (c := some { c with marks := m }) (by rw [hc]; rfl)).trans
        (Account.follows_revised hfree))) rfl
  refine withTarget_leads fun i => ?_
  split
  case h_3 => trivial
  all_goals
    next c hstate hc =>
    split
    · trivial
    · exact Reply.leads_check fun _ => marked i c _ hc (by rw [hstate]; nofun)

/-! ## The requests of channels -/

/-- A channel record replaced leaves the accounts as they are. -/
theorem TableLaws.setChannel {s : State} {c : ChannelNo} {ch : Channel} (hs : TableLaws s)
    (hl : ch.link = (s.channel c).link)
    (hfit : ch.link.isSome → ∀ a, fits (s.channel c) a = true → fits ch a = true) : TableLaws (s.setChannel c ch) :=
  ⟨hs.1, hs.2.setChannel hl hfit⟩

/-- A configured channel is IDLE and keeps its link (02 R35). -/
theorem configuredChannel_some {r : Request} {s : State} {c : ChannelNo} {ch : Channel}
    (h : configuredChannel r s c = some ch) : ch.state = .idle ∧ ch.link = (s.channel c).link := by
  unfold configuredChannel at h
  split at h
  · dsimp only at h
    split at h
    · split at h
      · cases h; exact ⟨rfl, rfl⟩
      · cases h
    · cases h
  · cases h

theorem configureChannel_tableLaws {s : State} (hs : TableLaws s) (r : Request) :
    (performConfigureChannel r s).Leads TableLaws := by
  refine withChannel_leads fun c => Reply.leads_check fun _ => ?_
  split
  · trivial
  next ch hch =>
  refine Reply.leads_check fun huse => ?_
  obtain ⟨hidle, hlink⟩ := configuredChannel_some hch
  refine hs.setChannel hlink fun hlinked a ha => ?_
  have same : ch.stack = (s.channel c).stack ∧ ch.substance = (s.channel c).substance := by
    by_contra hdiff
    exact huse ⟨not_and_or.mp hdiff, .inl (hlink ▸ hlinked)⟩
  rw [fits_iff] at ha ⊢
  rw [same.1, same.2, hidle]
  exact ⟨nofun, ha.2⟩

theorem startChannel_tableLaws {s : State} (hs : TableLaws s) (r : Request) : (performStartChannel r s).Leads TableLaws := by
  refine withChannel_leads fun c => Reply.leads_check fun _ => hs.setChannel rfl fun _ a ha => ?_
  rw [fits_iff] at ha ⊢
  exact ⟨nofun, ha.2⟩

theorem stopChannel_tableLaws {s : State} (hs : TableLaws s) (r : Request) : (performStopChannel r s).Leads TableLaws := by
  refine withChannel_leads fun c => Reply.leads_check fun _ => hs.setChannel rfl fun _ a ha => ?_
  rw [fits_iff] at ha ⊢
  exact ⟨nofun, ha.2⟩

theorem releaseChannel_tableLaws {s : State} (hs : TableLaws s) (r : Request) :
    (performReleaseChannel r s).Leads TableLaws := by
  refine withChannel_leads fun c => Reply.leads_check fun _ => Reply.leads_check fun hl => Reply.leads_check fun _ =>
    Reply.leads_check fun _ => hs.setChannel ?_ nofun
  have unlinked : (s.channel c).link = none := by simpa using hl
  exact unlinked.symm

/-! # The account and link laws through requests in hand, absorptions, accesses and events, and the statement that every
step keeps them. -/

/-! ## What leaves the two tables alone -/

/-- The Account Table and the Channel Table are as they were. -/
def SameTables (s t : State) : Prop := t.accounts = s.accounts ∧ t.channels = s.channels

theorem SameTables.refl (s : State) : SameTables s s := ⟨rfl, rfl⟩

theorem TableLaws.same {s t : State} (hs : TableLaws s) (h : SameTables s t) : TableLaws t := hs.of_tables h.1 h.2

/-! ### The requests that reach neither table -/

theorem readChannel_sameTables (r : Request) (s : State) : (performReadChannel r s).Leads (SameTables s) :=
  withChannel_leads fun _ => trivial

theorem setAllowance_sameTables (r : Request) (s : State) : (performSetAllowance r s).Leads (SameTables s) := by
  unfold performSetAllowance
  split
  · exact ⟨storeAllowances_accounts .., storeAllowances_channels ..⟩
  · trivial

theorem readStack_sameTables (r : Request) (s : State) : (performReadStack r s).Leads (SameTables s) := by
  unfold performReadStack
  split <;> trivial

theorem ackEpisode_sameTables (r : Request) (s : State) : (performAckEpisode r s).Leads (SameTables s) := by
  unfold performAckEpisode
  split
  · split
    · trivial
    · split
      · trivial
      · exact Reply.leads_check fun _ => ⟨rfl, rfl⟩
  · trivial

theorem readEpisode_sameTables (r : Request) (s : State) : (performReadEpisode r s).Leads (SameTables s) := by
  unfold performReadEpisode
  split
  · trivial
  · trivial
  · split <;> trivial

theorem find_sameTables (r : Request) (s : State) : (performFind r s).Leads (SameTables s) := by
  unfold performFind
  split
  · trivial
  · split
    · trivial
    · exact .refl s

theorem readAccount_sameTables (r : Request) (s : State) : (performReadAccount r s).Leads (SameTables s) := by
  unfold performReadAccount
  split <;> trivial

theorem setFeedInput_sameTables (r : Request) (s : State) : (performSetFeedInput r s).Leads (SameTables s) := by
  unfold performSetFeedInput
  split
  · exact ⟨rfl, rfl⟩
  · trivial

theorem declareAbnormal_sameTables (r : Request) (s : State) : (performDeclareAbnormal r s).Leads (SameTables s) := by
  unfold performDeclareAbnormal
  split
  · trivial
  · dsimp only
    split
    · exact ⟨rfl, rfl⟩
    · trivial

theorem endAbnormal_sameTables (r : Request) (s : State) : (performEndAbnormal r s).Leads (SameTables s) := by
  unfold performEndAbnormal
  split
  · trivial
  · dsimp only
    split
    · exact ⟨rfl, rfl⟩
    · trivial

theorem setGrace_sameTables (r : Request) (s : State) : (performSetGrace r s).Leads (SameTables s) := by
  unfold performSetGrace
  split
  · exact ⟨rfl, rfl⟩
  · trivial

theorem setCalendar_sameTables (r : Request) (s : State) : (performSetCalendar r s).Leads (SameTables s) := by
  unfold performSetCalendar
  split
  · trivial
  · exact Reply.leads_check fun _ => Reply.leads_check fun _ => ⟨rfl, rfl⟩

theorem resume_sameTables (r : Request) (s : State) : (performResume r s).Leads (SameTables s) := by
  cases h : performResume r s with
  | refused o => trivial
  | read v snap => trivial
  | done v t =>
    obtain ⟨p, S, rfl | rfl⟩ := performResume_done r s v t h
    · exact ⟨resumeAt_accounts .., resumeAt_channels ..⟩
    · exact ⟨(resumeAt_accounts ..).trans ((takeUp_accounts ..).trans (appendGap_accounts ..)),
        (resumeAt_channels ..).trans ((takeUp_channels ..).trans (appendGap_channels ..))⟩

/-! ## Every request -/

/-- Whatever is requested, a DONE leads to lawful tables. -/
theorem performRequest_tableLaws {s : State} (hs : TableLaws s) (c : RequestCode) (r : Request) :
    (performRequest c r s).Leads TableLaws := by
  have same {reply : Reply} (h : reply.Leads (SameTables s)) : reply.Leads TableLaws := h.mono fun _ => hs.same
  cases c with
  | createAccount => exact createAccount_tableLaws hs r
  | setLimits => exact setLimits_tableLaws hs r
  | linkSource => exact linkSource_tableLaws hs r
  | activate => exact activate_tableLaws hs r
  | amend => exact amend_tableLaws hs r
  | reassign => exact reassign_tableLaws hs r
  | retire => exact retire_tableLaws hs r
  | deleteDraft => exact deleteDraft_tableLaws hs r
  | certify => exact certify_tableLaws hs r
  | mark => exact mark_tableLaws hs r
  | configureChannel => exact configureChannel_tableLaws hs r
  | startChannel => exact startChannel_tableLaws hs r
  | stopChannel => exact stopChannel_tableLaws hs r
  | releaseChannel => exact releaseChannel_tableLaws hs r
  | readChannel => exact same (readChannel_sameTables r s)
  | setAllowance => exact same (setAllowance_sameTables r s)
  | readStack => exact same (readStack_sameTables r s)
  | ackEpisode => exact same (ackEpisode_sameTables r s)
  | readEpisode => exact same (readEpisode_sameTables r s)
  | find => exact same (find_sameTables r s)
  | readAccount => exact same (readAccount_sameTables r s)
  | setFeedInput => exact same (setFeedInput_sameTables r s)
  | declareAbnormal => exact same (declareAbnormal_sameTables r s)
  | endAbnormal => exact same (endAbnormal_sameTables r s)
  | setGrace => exact same (setGrace_sameTables r s)
  | setCalendar => exact same (setCalendar_sameTables r s)
  | resume => exact same (resume_sameTables r s)

theorem TableLaws.answered {s : State} (hs : TableLaws s) (o : Owner) (p : Port) (c : RequestCode) (r : Request) :
    TableLaws (finish o (answer p r.code (performRequest c r s) s)) := by
  have leads := performRequest_tableLaws hs c r
  have answered : TableLaws (answer p r.code (performRequest c r s) s) := by
    cases h : performRequest c r s with
    | refused out => exact hs.of_tables (complete_accounts ..) (complete_channels ..)
    | done v t =>
      rw [h] at leads
      exact leads.of_tables (complete_accounts ..) (complete_channels ..)
    | read v snap =>
      exact hs.of_tables ((complete_accounts ..).trans (setView_accounts ..))
        ((complete_channels ..).trans (setView_channels ..))
  exact answered.of_tables (finish_accounts ..) (finish_channels ..)

theorem TableLaws.completeAll {s : State} (hs : TableLaws s) : TableLaws (completeAll s) :=
  completeAll_induct (fun _ o p c r ht _ => ht.answered o p c r) hs

theorem TableLaws.completeEarlier {s : State} (hs : TableLaws s) (o : Owner) : TableLaws (completeEarlier o s) :=
  completeEarlier_induct (fun _ o p c r ht _ => ht.answered o p c r) hs o

/-! ## The absorptions -/

theorem accountsFollow_openNew (u : Subject) (stamp : HalfHourStamp) (v : Option Nat) (s : State) :
    AccountsFollow s (openNew u stamp v s) := by
  unfold openNew
  split
  · exact .of_accounts rfl
  · cases u with
    | exceedance i => exact (accountsFollow_updCurrent s i _).trans (.of_accounts (raiseEvent_accounts ..))
    | abnormalOperation k => exact .of_accounts rfl

theorem accountsFollow_qualify (u : Subject) (stamp : HalfHourStamp) (v : Option Nat) (s : State) :
    AccountsFollow s (qualify u stamp v s) := by
  unfold qualify
  split
  · exact .of_accounts rfl
  · exact accountsFollow_openNew ..

theorem accountsFollow_endEpisodes (q : Subject → Bool) (stamp : HalfHourStamp) (s : State) :
    AccountsFollow s (endEpisodes q stamp s) := by
  have fold (t : State) (e : Episode) : AccountsFollow t (foldEpisode e t) := by
    unfold foldEpisode
    split
    · exact accountsFollow_updCurrent ..
    · exact .of_accounts rfl
  exact (AccountsFollow.foldl fold _ s).trans (.of_accounts rfl)

theorem accountsFollow_absorbResult (e : ResultEntry) (s : State) : AccountsFollow s (absorbResult e s) := by
  have byClass : AccountsFollow s (absorbClass e s) := by
    unfold absorbClass
    dsimp only
    split
    · unfold validEpisode
      split
      · split
        · exact (accountsFollow_updCurrent ..).trans (accountsFollow_qualify ..)
        · exact (accountsFollow_updCurrent ..).trans (accountsFollow_endEpisodes ..)
      · exact accountsFollow_updCurrent ..
    · exact accountsFollow_updCurrent ..
    · exact accountsFollow_updCurrent ..
    · exact (accountsFollow_updCurrent ..).trans (accountsFollow_endEpisodes ..)
  unfold absorbResult
  split
  · refine byClass.trans ?_
    unfold absorbInternal
    split
    · exact accountsFollow_updCurrent ..
    · exact .of_accounts rfl
  · exact .of_accounts rfl

theorem accountsFollow_absorbStack (e : StackEntry) (s : State) : AccountsFollow s (absorbStack e s) := by
  unfold absorbStack
  dsimp only
  split
  · have counted : AccountsFollow s (s.setAllowance e.stack (s.allowance e.stack).countAbnormal) := .of_accounts rfl
    exact (counted.trans (accountsFollow_qualify ..)).trans (.of_accounts (evaluateStop_accounts ..))
  · exact (accountsFollow_endEpisodes (· == .abnormalOperation e.stack) e.stamp s).trans
      (.of_accounts (setLast_accounts ..))

theorem accountsFollow_closeDay (Y D : Nat) (s : State) : AccountsFollow s (closeDay Y D s) := ⟨fun i => by
  rw [closeDay_account]
  split
  · next c hc =>
    split
    · exact Account.follows_side _ (by rw [hc]; rfl)
    · exact .refl _
  · exact .refl _⟩

theorem accountsFollow_closeYear (Y : Nat) (s : State) : AccountsFollow s (closeYear Y s) := ⟨fun i => by
  have ended := (accountsFollow_endEpisodes Subject.isExceedance ⟨Y, daysInYear Y, 47⟩ s).slot i
  rw [closeYear_account]
  dsimp only
  split
  · split
    · next happlies => exact ended.trans (Account.follows_closeYear happlies _)
    · exact ended
  · exact ended⟩

theorem accountsFollow_walkHalfHour (charged : List SlotNo) (x : HalfHourStamp) (s : State) :
    AccountsFollow s (walkHalfHour charged x s) := by
  have charge (t : State) (i : SlotNo) : AccountsFollow t (chargeGap i t) := by
    unfold chargeGap
    split
    · exact accountsFollow_updCurrent ..
    · exact .of_accounts rfl
  have charges : AccountsFollow s (charged.foldl (fun t i => chargeGap i t) s) := .foldl charge charged s
  unfold walkHalfHour
  dsimp only
  generalize charged.foldl (fun t i => chargeGap i t) s = t at charges ⊢
  split
  · split
    · exact (charges.trans (accountsFollow_closeDay ..)).trans (accountsFollow_closeYear ..)
    · exact charges.trans (accountsFollow_closeYear ..)
  · split
    · exact charges.trans (accountsFollow_closeDay ..)
    · exact charges

theorem accountsFollow_walkGap (charged : List SlotNo) (n : Nat) (x : HalfHourStamp) (s : State) :
    AccountsFollow s (walkGap charged n x s) := by
  induction n generalizing x s with
  | zero => exact .of_accounts rfl
  | succ n ih => exact (accountsFollow_walkHalfHour charged x s).trans (ih _ _)

/-- An absorption in whose effect every account keeps its place. -/
theorem TableLaws.absorbHead {s : State} {effect : State → State} (hs : TableLaws s)
    (hf : ∀ t, AccountsFollow t (effect t)) (hc : ∀ t, (effect t).channels = t.channels) :
    TableLaws (absorbHead effect s) :=
  ((hs.completeEarlier .engine).follow (hf _) (hc _)).of_tables (removeHead_accounts _) (removeHead_channels _)

/-! ## What a command leads to -/

/-- A property of the next state that a command answers. -/
def Answer.Leads (P : State → Prop) (a : Answer) : Prop :=
  match a with
  | .next t => P t
  | .fault _ | .refused _ => True

theorem Answer.Leads.mono {P Q : State → Prop} {a : Answer} (h : Answer.Leads P a) (hPQ : ∀ t, P t → Q t) :
    Answer.Leads Q a := by
  cases a with
  | next t => exact hPQ t h
  | fault f => trivial
  | refused f => trivial

theorem runRequest_tableLaws {s : State} (hs : TableLaws s) (c : RequestCode) :
    Answer.Leads TableLaws (runRequest c (performRequest c) s) := by
  unfold runRequest
  split
  · exact hs
  · exact (hs.completeEarlier _).answered ..

/-- What a write of a location by a port leads to. -/
theorem portWrite_sameTables (p : Port) (loc : Loc) (v : Byte) (s : State) :
    Answer.Leads (SameTables s) (portWrite p loc v s) := by
  cases p with
  | a =>
    show Answer.Leads _ (frameWrite loc v s)
    unfold frameWrite
    split
    · exact ⟨windowWrite_accounts .., windowWrite_channels ..⟩
    · exact .refl s
  | b =>
    show Answer.Leads _ (valueWrite loc v s)
    unfold valueWrite
    split
    · exact ⟨receiveByte_accounts .., receiveByte_channels ..⟩
    · exact .refl s

/-- What a read of a location by a port leads to. -/
theorem portRead_sameTables (p : Port) (loc : Loc) (s : State) : Answer.Leads (SameTables s) (portRead p loc s) := by
  cases p with
  | a =>
    show Answer.Leads _ (frameRead loc s)
    unfold frameRead
    split
    · exact ⟨windowRead_accounts .., windowRead_channels ..⟩
    · exact .refl s
  | b =>
    show Answer.Leads _ (selectorRead loc s)
    unfold selectorRead
    split
    · exact ⟨receiveByte_accounts .., receiveByte_channels ..⟩
    · exact .refl s

theorem sameTables_takePulse (s : State) : SameTables s (takePulse s) := by
  unfold takePulse
  split
  · exact .refl s
  · split
    · exact .refl s
    · exact ⟨boundary_accounts .., boundary_channels ..⟩
    · exact ⟨rfl, rfl⟩
    · exact ⟨boundary_accounts .., boundary_channels ..⟩

theorem sameTables_expireSupervision (s : State) : SameTables s (expireSupervision s) := by
  unfold expireSupervision
  split
  · exact ⟨(boundary_accounts ..).trans (loseClock_accounts _), (boundary_channels ..).trans (loseClock_channels _)⟩
  · exact .refl s

theorem sameTables_expireGrace (s : State) : SameTables s (expireGrace s) := by
  unfold expireGrace
  split
  · exact ⟨collectGrace_accounts _, collectGrace_channels _⟩
  · exact .refl s

theorem sameTables_changeLine (i : StackNo) (level : Bool) (s : State) : SameTables s (changeLine i level s) := by
  unfold changeLine
  split
  · exact .refl s
  · dsimp only
    split
    · exact ⟨rfl, rfl⟩
    · exact ⟨rfl, rfl⟩

theorem sameTables_expireDebounce (i : StackNo) (s : State) : SameTables s (expireDebounce i s) := by
  unfold expireDebounce
  dsimp only
  split
  · exact .refl s
  · split
    · exact .refl s
    · exact ⟨rfl, rfl⟩

theorem TableLaws.beginStop {s : State} (hs : TableLaws s) : TableLaws (beginStop s) := by
  unfold Machine.beginStop
  split
  · have completed : TableLaws (Machine.completeAll { s with part := .stopping }) :=
      TableLaws.completeAll (hs.of_tables rfl rfl)
    exact completed.of_tables (stopBlocks_accounts _) (stopBlocks_channels _)
  · exact hs

/-! # The account and link laws through one command and one step -/

/-! ## The rows of absorptions, power and port A -/

theorem execResultAbsorption_tableLaws {s : State} (hs : TableLaws s) : Answer.Leads TableLaws (execResultAbsorption s) := by
  unfold execResultAbsorption
  split
  · exact hs.absorbHead (accountsFollow_absorbResult _) (absorbResult_channels _)
  all_goals exact hs

theorem execStackEntryAbsorption_tableLaws {s : State} (hs : TableLaws s) :
    Answer.Leads TableLaws (execStackEntryAbsorption s) := by
  unfold execStackEntryAbsorption
  split
  · exact hs.absorbHead (accountsFollow_absorbStack _) (absorbStack_channels _)
  all_goals exact hs

theorem execDayEndAbsorption_tableLaws {s : State} (hs : TableLaws s) : Answer.Leads TableLaws (execDayEndAbsorption s) := by
  unfold execDayEndAbsorption
  split
  · exact hs.absorbHead (accountsFollow_closeDay _ _) (closeDay_channels _ _)
  all_goals exact hs

theorem execYearEndAbsorption_tableLaws {s : State} (hs : TableLaws s) :
    Answer.Leads TableLaws (execYearEndAbsorption s) := by
  unfold execYearEndAbsorption
  split
  · exact hs.absorbHead (accountsFollow_closeYear _) (closeYear_channels _)
  all_goals exact hs

theorem execGapWalk_tableLaws {s : State} (hs : TableLaws s) : Answer.Leads TableLaws (execGapWalk s) := by
  unfold execGapWalk
  split
  · exact hs.absorbHead (accountsFollow_walkGap _ _ _) (walkGap_channels _ _ _)
  all_goals exact hs

theorem execPartStop_sameTables (s : State) : Answer.Leads (SameTables s) (execPartStop s) := by
  unfold execPartStop
  split <;> exact ⟨rfl, rfl⟩

theorem execRestart_sameTables (s : State) : Answer.Leads (SameTables s) (execRestart s) := by
  unfold execRestart
  split <;> exact ⟨rfl, rfl⟩

theorem execPowerOn_sameTables (s : State) : Answer.Leads (SameTables s) (execPowerOn s) := by
  unfold execPowerOn
  dsimp only
  split <;> exact ⟨rfl, rfl⟩

theorem execFrameStart_sameTables (s : State) : Answer.Leads (SameTables s) (execFrameStart s) := by
  unfold execFrameStart
  split <;> exact ⟨rfl, rfl⟩

theorem execFrameHeader_sameTables (header : Byte) (s : State) : Answer.Leads (SameTables s) (execFrameHeader header s) := by
  unfold execFrameHeader
  split <;> exact ⟨rfl, rfl⟩

theorem execAnswerSent_sameTables (s : State) : Answer.Leads (SameTables s) (execAnswerSent s) := by
  unfold execAnswerSent
  split <;> exact ⟨rfl, rfl⟩

theorem receiveByte_sameTables (v : Byte) (s : State) : Answer.Leads (SameTables s) (.next (receiveByte v s)) :=
  ⟨receiveByte_accounts .., receiveByte_channels ..⟩

/-- A write of a location that belongs to its row only under a condition. -/
theorem portWrite_if_sameTables {c : Prop} [Decidable c] (p : Port) (loc : Loc) (v : Byte) (s : State) :
    Answer.Leads (SameTables s) (if c then portWrite p loc v s else .next s) := by
  split
  · exact portWrite_sameTables p loc v s
  · exact .refl s

theorem execRegisterWrite_sameTables (p : Port) (loc : Loc) (v : Byte) (s : State) :
    Answer.Leads (SameTables s) (execRegisterWrite p loc v s) := by
  unfold execRegisterWrite
  split
  · exact .refl s
  · exact portWrite_sameTables p loc v s

/-! ## Every command -/

/-- Whatever the command, it leads from lawful tables to lawful tables. -/
theorem exec_tableLaws {s : State} (hs : TableLaws s) (c : Instr) : Answer.Leads TableLaws (exec c s) := by
  have same {t : State} (ht : TableLaws t) {a : Answer} (h : Answer.Leads (SameTables t) a) :
      Answer.Leads TableLaws a := h.mono fun _ => ht.same
  cases c with
  | minpPulse => exact hs.completeAll.same (sameTables_takePulse _)
  | supervisionExpiry => exact hs.completeAll.same (sameTables_expireSupervision _)
  | graceExpiry => exact hs.completeAll.same (sameTables_expireGrace _)
  | feedLineChange i level => exact hs.completeAll.same (sameTables_changeLine i level _)
  | debounceExpiry i => exact hs.completeAll.same (sameTables_expireDebounce i _)
  | supplyLow => exact hs.beginStop.of_tables rfl rfl
  | rstnLow => exact hs.beginStop.of_tables rfl rfl
  | partStop => exact same hs (execPartStop_sameTables s)
  | supplyRestored => exact hs.of_tables rfl rfl
  | rstnHigh => exact hs.of_tables rfl rfl
  | restart => exact same hs (execRestart_sameTables s)
  | powerOn => exact same hs (execPowerOn_sameTables s)
  | resultAbsorption => exact execResultAbsorption_tableLaws hs
  | stackEntryAbsorption => exact execStackEntryAbsorption_tableLaws hs
  | dayEndAbsorption => exact execDayEndAbsorption_tableLaws hs
  | yearEndAbsorption => exact execYearEndAbsorption_tableLaws hs
  | gapWalk => exact execGapWalk_tableLaws hs
  | createAccount => exact runRequest_tableLaws hs .createAccount
  | setLimits => exact runRequest_tableLaws hs .setLimits
  | linkSource => exact runRequest_tableLaws hs .linkSource
  | activate => exact runRequest_tableLaws hs .activate
  | amend => exact runRequest_tableLaws hs .amend
  | reassign => exact runRequest_tableLaws hs .reassign
  | retire => exact runRequest_tableLaws hs .retire
  | deleteDraft => exact runRequest_tableLaws hs .deleteDraft
  | certify => exact runRequest_tableLaws hs .certify
  | mark => exact runRequest_tableLaws hs .mark
  | configureChannel => exact runRequest_tableLaws hs .configureChannel
  | startChannel => exact runRequest_tableLaws hs .startChannel
  | stopChannel => exact runRequest_tableLaws hs .stopChannel
  | releaseChannel => exact runRequest_tableLaws hs .releaseChannel
  | readChannel => exact runRequest_tableLaws hs .readChannel
  | setAllowance => exact runRequest_tableLaws hs .setAllowance
  | readStack => exact runRequest_tableLaws hs .readStack
  | setFeedInput => exact runRequest_tableLaws hs .setFeedInput
  | declareAbnormal => exact runRequest_tableLaws hs .declareAbnormal
  | endAbnormal => exact runRequest_tableLaws hs .endAbnormal
  | ackEpisode => exact runRequest_tableLaws hs .ackEpisode
  | readEpisode => exact runRequest_tableLaws hs .readEpisode
  | find => exact runRequest_tableLaws hs .find
  | readAccount => exact runRequest_tableLaws hs .readAccount
  | setCalendar => exact runRequest_tableLaws hs .setCalendar
  | setGrace => exact runRequest_tableLaws hs .setGrace
  | resume => exact runRequest_tableLaws hs .resume
  | go p v => exact same hs (portWrite_sameTables p _ v s)
  | registerWrite p loc v => exact same hs (execRegisterWrite_sameTables p loc v s)
  | viewPointerWrite p v => exact same hs (portWrite_sameTables p _ v s)
  | recordWrite loc v => exact same hs (portWrite_if_sameTables .a loc v s)
  | handOver v => exact same hs.completeAll (portWrite_sameTables .a _ v _)
  | enableWrite loc v => exact same hs (portWrite_if_sameTables .a loc v s)
  | maskWrite loc v => exact same hs (portWrite_if_sameTables .a loc v s)
  | trackingAndVectorBaseWrite v => exact same hs (portWrite_sameTables .a _ v s)
  | pendingClear v => exact same hs (portWrite_sameTables .a _ v s)
  | endOfService v => exact same hs (portWrite_sameTables .a _ v s)
  | detailPointerWrite v => exact same hs (portWrite_sameTables .a _ v s)
  | calendarCapture p => exact same hs (portRead_sameTables p _ s)
  | viewDataRead p => exact same hs (portRead_sameTables p _ s)
  | vectorRead => exact same hs (portRead_sameTables .a _ s)
  | detailDataRead => exact same hs (portRead_sameTables .a _ s)
  | readSelector v => exact same hs (receiveByte_sameTables v s)
  | writeSelector v => exact same hs (receiveByte_sameTables v s)
  | valueByte v => exact same hs (receiveByte_sameTables v s)
  | framingError => exact hs.of_tables rfl rfl
  | rxdBreak => exact hs.of_tables rfl rfl
  | breakEnd => exact hs.of_tables rfl rfl
  | answerSent => exact same hs (execAnswerSent_sameTables s)
  | frameStart => exact same hs (execFrameStart_sameTables s)
  | frameHeader header => exact same hs (execFrameHeader_sameTables header s)
  | frameEnd => exact hs.of_tables rfl rfl

/-- An idle step takes a due expiry, shifts a byte out or lets a second pass. -/
theorem idle_tableLaws {s : State} (hs : TableLaws s) : Answer.Leads TableLaws (idle s) := by
  unfold idle
  split
  · exact exec_tableLaws hs _
  · split
    · next t ht =>
      refine hs.same ?_
      unfold shiftPlainByte at ht
      split at ht
      · split at ht
        · cases ht
        · cases ht; exact ⟨rfl, rfl⟩
      all_goals cases ht
    · exact hs.of_tables rfl rfl

theorem step_tableLaws {s : State} (hs : TableLaws s) : Answer.Leads TableLaws (step s) := by
  unfold step
  split
  · next c rest _ =>
    have queued : TableLaws { s with pending := rest } := hs.of_tables rfl rfl
    exact exec_tableLaws queued c
  · exact idle_tableLaws hs

/-- Settles O56: the laws hold of what every command leads to, and so of what a step answers. -/
theorem stepKeepsAccountAndLinkLaw : Obligations.StepKeepsAccountAndLinkLaw := by
  intro s t haccount hlink hstep
  have leads := step_tableLaws (s := s) ⟨haccount, hlink⟩
  rw [hstep] at leads
  exact leads

end Sys2Proof.Machine
end

section
/-! SUPPORT. The channels and their posting slots: what a collection, a record write and a HAND_OVER do to a slot, the channel
requests, and the slot law through every step (02). -/

namespace Sys2Proof.Machine

/-! # The posting slots: what a collection and the writes of the posting area do to them (02 R41, R42, R44). -/

/-! ## The slots of a pair -/

@[simp] theorem SlotPair.get_set_self (p : SlotPair) (n : SlotName) (x : PostingSlot) : (p.set n x).get n = x := by
  cases n <;> rfl

@[simp] theorem SlotPair.get_set_other (p : SlotPair) (n : SlotName) (x : PostingSlot) :
    (p.set n x).get n.other = p.get n.other := by
  cases n <;> rfl

theorem SlotName.eq_or_other (n k : SlotName) : k = n ∨ k = n.other := by
  cases n <;> cases k <;> simp [SlotName.other]

/-- A property of both slots, said of one and of the other. -/
theorem SlotName.forall_iff {P : SlotName → Prop} (n : SlotName) : (∀ k, P k) ↔ P n ∧ P n.other :=
  ⟨fun h => ⟨h n, h n.other⟩, fun ⟨hn, ho⟩ k => (n.eq_or_other k).elim (· ▸ hn) (· ▸ ho)⟩

/-! ## One slot at a collection (02 R44) -/

section
variable {ch : Channel} {m : MinuteStamp} {p : PostingSlot}

theorem collectSlot_taken (hc : ch.state = .collecting) (hl : p.loaded = true) (hm : p.stamp = m) :
    collectSlot ch m p = { p with loaded := false, code := .taken } := by
  simp [collectSlot, takenAt, hc, hl, hm]

theorem collectSlot_later (hc : ch.state = .collecting) (hm : p.stamp ≠ m) : collectSlot ch m p = p := by
  simp [collectSlot, takenAt, hc, hm]

theorem collectSlot_stopped (hc : ch.state ≠ .collecting) (hl : p.loaded = true) :
    collectSlot ch m p = { p with loaded := false, code := .discardedStopped } := by
  simp [collectSlot, takenAt, hc, hl]

theorem collectSlot_empty (hl : p.loaded = false) : collectSlot ch m p = p := by
  simp [collectSlot, takenAt, hl]

/-- A slot LOADED behind a collection was LOADED with another stamp, and is as it was. -/
theorem collectSlot_loaded (h : (collectSlot ch m p).loaded = true) :
    p.loaded = true ∧ p.stamp ≠ m ∧ collectSlot ch m p = p := by
  have hl : p.loaded = true := by
    by_contra hl
    rw [collectSlot_empty (Bool.eq_false_iff.mpr hl)] at h
    exact hl h
  have hc : ch.state = .collecting := by
    by_contra hc
    rw [collectSlot_stopped hc hl] at h
    cases h
  have hm : p.stamp ≠ m := by
    intro hm
    rw [collectSlot_taken hc hl hm] at h
    cases h
  exact ⟨hl, hm, collectSlot_later hc hm⟩

end

/-! ## The slots behind a collection -/

/-- The half-hour close and MINUTE_INCOMPLETE reach no slot. -/
theorem collectMinute_slots (m : MinuteStamp) (b : Bool) (s : State) :
    (collectMinute m b s).slots = (collectRecords m b s).slots := by
  unfold collectMinute
  dsimp only
  split <;> split
  · exact closeHalfHour_slots ..
  · exact closeHalfHour_slots ..
  · rfl
  · rfl

theorem slot_collectMinute (m : MinuteStamp) (b : Bool) (s : State) (c : ChannelNo) (n : SlotName) :
    ((collectMinute m b s).slotPair c).get n = collectSlot (s.channel c) m ((s.slotPair c).get n) := by
  have pair : (collectMinute m b s).slotPair c =
      ⟨collectSlot (s.channel c) m (s.slotPair c).x, collectSlot (s.channel c) m (s.slotPair c).y⟩ := by
    rw [State.slotPair, collectMinute_slots]
    exact get_tabulate ..
  rw [pair]
  cases n <;> rfl

/-- Settles O11: the four rows of R44. -/
theorem collectionActsOnSlots : Obligations.CollectionActsOnSlots := by
  intro m internal s c n
  dsimp only
  rw [slot_collectMinute]
  exact ⟨collectSlot_taken, fun hc _ => collectSlot_later hc, collectSlot_stopped, collectSlot_empty⟩

/-! ## The bytes of a record (12 R187) -/

/-- A byte of a value with one byte replaced (12 R187). -/
theorem extractLsb_replaceByte {w : Nat} (x : BitVec w) (v : Byte) {n k : Nat} (hk : 8 * k + 8 ≤ w) :
    (replaceByte x n v).extractLsb' (8 * k) 8 = if k = n then v else x.extractLsb' (8 * k) 8 := by
  have mask (j : Nat) : (0xFF#w).getLsbD j = (decide (j < w) && decide (j < 8)) := by
    rw [BitVec.getLsbD_ofNat, show (255 : Nat) = 2 ^ 8 - 1 from rfl, Nat.testBit_two_pow_sub_one]
  ext i hi
  simp only [replaceByte, BitVec.getElem_extractLsb', BitVec.getLsbD_or, BitVec.getLsbD_and, BitVec.getLsbD_not,
    BitVec.getLsbD_shiftLeft, BitVec.getLsbD_setWidth, mask]
  have hw : 8 * k + i < w := by omega
  rcases Nat.lt_trichotomy k n with hlt | rfl | hgt
  · have below : 8 * k + i < 8 * n := by omega
    simp [below, hw, hlt.ne]
  · simp [hw, hi, show i < w by omega]
  · have beyond : 8 ≤ 8 * k + i - 8 * n := by omega
    simp [hw, hgt.ne', Nat.not_lt.mpr beyond, BitVec.getLsbD_of_ge v _ beyond, show ¬ 8 * k + i < 8 * n by omega]

theorem bitBytes_two_replaceByte (x : Word16) {n : Nat} (hn : n < 2) (v : Byte) :
    bitBytes 2 (replaceByte x n v) = (bitBytes 2 x).set n v := by
  have first := extractLsb_replaceByte x v (n := n) (k := 0) (by omega)
  have second := extractLsb_replaceByte x v (n := n) (k := 1) (by omega)
  rw [bitBytes_two, bitBytes_two]
  obtain rfl | rfl : n = 0 ∨ n = 1 := by omega
  all_goals simpa using ⟨first, second⟩

theorem bitBytes_three_replaceByte (x : BitVec 24) {n : Nat} (hn : n < 3) (v : Byte) :
    bitBytes 3 (replaceByte x n v) = (bitBytes 3 x).set n v := by
  have first := extractLsb_replaceByte x v (n := n) (k := 0) (by omega)
  have second := extractLsb_replaceByte x v (n := n) (k := 1) (by omega)
  have third := extractLsb_replaceByte x v (n := n) (k := 2) (by omega)
  rw [bitBytes_three, bitBytes_three]
  obtain rfl | rfl | rfl : n = 0 ∨ n = 1 ∨ n = 2 := by omega
  all_goals simpa using ⟨first, second, third⟩

/-- The ten bytes of a slot's record, 0x62 to 0x6B (12 R187). -/
def PostingSlot.recordBytes (p : PostingSlot) : List Byte :=
  bitBytes 2 p.year ++ bitBytes 2 p.day ++ bitBytes 2 p.minute ++ bitBytes 3 p.value ++ [p.quality]

theorem PostingSlot.writeByte_recordBytes (p : PostingSlot) {loc : Nat} (v : Byte) (h0 : 0x62 ≤ loc) (h1 : loc ≤ 0x6B) :
    (p.writeByte loc v).recordBytes = p.recordBytes.set (loc - 0x62) v := by
  -- At each location the write falls into one field, whose bytes stand at that place of the record.
  interval_cases loc
  all_goals
    simp [PostingSlot.writeByte, PostingSlot.recordBytes, bitBytes_two_replaceByte, bitBytes_three_replaceByte,
      bitBytes_length]

theorem PostingSlot.writeByte_loaded (p : PostingSlot) (loc : Nat) (v : Byte) : (p.writeByte loc v).loaded = p.loaded := by
  unfold PostingSlot.writeByte
  (repeat' split) <;> rfl

theorem PostingSlot.writeByte_code (p : PostingSlot) (loc : Nat) (v : Byte) : (p.writeByte loc v).code = p.code := by
  unfold PostingSlot.writeByte
  (repeat' split) <;> rfl

/-! ## Writes of port A to the posting area (12 R183, R187) -/

/-- A data byte of a write frame is written behind the frame's move. -/
theorem Writes.frameWrite_eq {loc : Loc} {s : State} (h : Writes .a loc s) (v : Byte) :
    frameWrite loc v s = .next (windowWrite .a loc v (afterByte .a loc s)) := by
  have hframe : s.portA.frame = some (.data false loc) := h
  rw [frameWrite, if_pos hframe, moveFrame_windowWrite]
  rfl

theorem windowWrite_posting {t : State} (hpart : t.part ≠ .stopped) {loc : Loc} (h0 : 0x60 ≤ loc.toNat)
    (h1 : loc.toNat ≤ 0x6F) (v : Byte) : windowWrite .a loc v t = postingWrite loc.toNat v t := by
  rw [windowWrite_run hpart, if_neg (by omega), if_neg (by omega), if_neg (by omega), if_neg (by omega), if_neg (by omega),
    if_neg (by simp; omega), if_pos h1]

theorem windowWrite_stopped {t : State} (hpart : t.part = .stopped) (p : Port) (loc : Loc) (v : Byte) :
    windowWrite p loc v t = t := if_pos hpart

/-! ## Record writes (02 R41) -/

section
variable {s : State} {loc : Nat} {v : Byte} {c : ChannelNo} {n : SlotName}

theorem recordWrite_unselected (h : selected s = none) : recordWrite loc v s = s := by
  rw [recordWrite, h]

theorem recordWrite_ignored (h : selected s = some (c, n))
    (hi : ((s.slotPair c).get n).loaded = true ∨ s.part ≠ .running) : recordWrite loc v s = s := by
  rw [recordWrite, h]
  exact if_pos hi

theorem recordWrite_empty (h : selected s = some (c, n)) (hl : ((s.slotPair c).get n).loaded = false)
    (hp : s.part = .running) : recordWrite loc v s = s.setSlot c n (((s.slotPair c).get n).writeByte loc v) := by
  rw [recordWrite, h]
  exact if_neg (by simp [hl, hp])

theorem recordWrite_stopping (hp : s.part ≠ .running) : recordWrite loc v s = s := by
  cases h : selected s with
  | none => exact recordWrite_unselected h
  | some x => exact recordWrite_ignored h (.inr hp)

end

theorem exec_recordWrite {loc : Loc} {s : State} (h : Writes .a loc s) (h0 : 0x62 ≤ loc.toNat) (h1 : loc.toNat ≤ 0x6B)
    (v : Byte) : exec (.recordWrite loc v) s = .next (recordWrite loc.toNat v (afterByte .a loc s)) := by
  show execRecordWrite loc v s = _
  rw [execRecordWrite, if_pos ⟨h0, h1⟩, portWrite, h.frameWrite_eq]
  by_cases hp : (afterByte .a loc s).part = .stopped
  · rw [windowWrite_stopped hp, recordWrite_stopping (by rw [hp]; nofun)]
  · rw [windowWrite_posting hp (by omega) (by omega), postingWrite, if_neg (by omega), if_neg (by omega), if_pos h1]

/-! ## HAND_OVER (02 R42) -/

theorem isCurrentMinute_iff {c : Clock} {m : MinuteStamp} :
    isCurrentMinute c m = true ↔ m = c.position ∨ ∃ g, c.inGrace = some g ∧ m = g.stamp := by
  unfold isCurrentMinute
  cases c.inGrace <;> simp

theorem handOver_accepted {s : State} {c : ChannelNo} {n : SlotName} (h : selected s = some (c, n))
    (hc : handOverCode s c n = .accepted) :
    handOver s = s.setSlot c n { (s.slotPair c).get n with loaded := true, code := .accepted } := by
  rw [handOver, h]
  simp only [hc, if_pos]

theorem handOver_refused {s : State} {c : ChannelNo} {n : SlotName} (h : selected s = some (c, n))
    (hc : handOverCode s c n ≠ .accepted) :
    handOver s = raiseEvent .postingRefused c (s.setSlot c n { (s.slotPair c).get n with code := handOverCode s c n }) := by
  rw [handOver, h]
  exact if_neg hc

/-- A HAND_OVER is accepted by the six checks. -/
theorem handOverCode_accepted {s : State} {c : ChannelNo} {n : SlotName} :
    handOverCode s c n = .accepted ↔
      s.clock.state = .run ∧ s.part = .running ∧ (s.channel c).state = .collecting ∧
      ((s.slotPair c).get n).loaded = false ∧ ((s.slotPair c).get n).qualityCode ≤ 3 ∧
      isCurrentMinute s.clock ((s.slotPair c).get n).stamp = true ∧
      (((s.slotPair c).get n.other).loaded = true →
        ((s.slotPair c).get n.other).stamp ≠ ((s.slotPair c).get n).stamp) := by
  simp [handOverCode, ite_eq_iff, and_assoc]

theorem exec_handOver {s : State} (hn : NoneInHand s) (h : Writes .a 0x6C s) (hp : s.part ≠ .stopped) (v : Byte) :
    exec (.handOver v) s = .next (handOver (afterByte .a 0x6C s)) := by
  show execHandOver v s = _
  rw [execHandOver, completeAll_none hn, portWrite, h.frameWrite_eq,
    windowWrite_posting (t := afterByte .a 0x6C s) hp (by decide) (by decide)]
  rfl

/-- Settles O51: a record write by the state of the selected slot; a HAND_OVER by the first check that fails. -/
theorem postingAreaWritesAndHandOver : Obligations.PostingAreaWritesAndHandOver := by
  refine ⟨fun loc v s hw h0 h1 => ?_, fun v s c n hn hw hsel hp => ?_⟩
  · dsimp only
    rw [exec_recordWrite hw h0 h1]
    refine ⟨fun hi => ?_, fun c n hsel => ⟨fun hl => ?_, fun hl hp => ⟨((s.slotPair c).get n).writeByte loc.toNat v, ?_,
      ?_, PostingSlot.writeByte_code .., PostingSlot.writeByte_recordBytes _ v h0 h1⟩⟩⟩
    · rcases hi with hnone | hp
      · rw [recordWrite_unselected (s := afterByte .a loc s) hnone]
      · rw [recordWrite_stopping (s := afterByte .a loc s) hp]
    · rw [recordWrite_ignored (s := afterByte .a loc s) hsel (.inl hl)]
    · rw [recordWrite_empty (s := afterByte .a loc s) hsel hl hp]; rfl
    · rw [PostingSlot.writeByte_loaded, hl]
  · have refused : ∀ code, handOverCode s c n = code → code ≠ .accepted → exec (.handOver v) s =
        .next (raiseEvent .postingRefused c
          ((afterByte .a 0x6C s).setSlot c n { (s.slotPair c).get n with code := code })) := by
      rintro code rfl hcode
      rw [exec_handOver hn hw hp, handOver_refused (s := afterByte .a 0x6C s) hsel hcode]
      rfl
    refine ⟨fun h1 => refused _ (if_pos (not_and_or.mp h1)) nofun,
      fun h1 h2 => refused _ ?_ nofun, fun h1 h2 h3 => refused _ ?_ nofun, fun h1 h2 h3 h4 => refused _ ?_ nofun,
      fun h1 h2 h3 h4 h5 => refused _ ?_ nofun, fun h1 h2 h3 h4 h5 h6 => refused _ ?_ nofun,
      fun h1 h2 h3 h4 h5 h6 => ?_⟩
    · simp [handOverCode, h1, h2]
    · simp [handOverCode, h1, h2, h3]
    · simp [handOverCode, h1, h2, h3, h4]
    · simp [handOverCode, h1, h2, h3, h4, mt isCurrentMinute_iff.mp h5]
    · have loaded_alike : ((s.slotPair c).get n.other).loaded = true ∧
          ((s.slotPair c).get n.other).stamp = ((s.slotPair c).get n).stamp := by simpa using h6
      simp [handOverCode, h1, h2, h3, Nat.not_lt.mpr h4, isCurrentMinute_iff.mpr h5, loaded_alike]
    · have code : handOverCode s c n = .accepted := handOverCode_accepted.mpr
        ⟨h1.1, h1.2, h2, h3, h4, isCurrentMinute_iff.mpr h5, fun hl => h6.resolve_left (Bool.eq_false_iff.not_left.mpr hl)⟩
      rw [exec_handOver hn hw hp, handOver_accepted (s := afterByte .a 0x6C s) hsel code]
      rfl

/-! # The channel requests (02 R33 to R38): what each answers, and the statement about them. -/

/-! ## What holds a channel (02 R34, R38) -/

theorem draftNames_true {s : State} {c : ChannelNo} :
    anyOf (draftNames s c) = true ↔ ∃ i, (s.account i).state = .draft ∧ (s.account i).source = some c := by
  simp [anyOf_true_iff, draftNames]

/-- A channel that a link, a DRAFT account or an oxygen source names is not released (02 R38). -/
def ChannelHeld (s : State) (c : ChannelNo) : Prop :=
  (s.channel c).link ≠ none ∨ (∃ i, (s.account i).state = .draft ∧ (s.account i).source = some c) ∨
    ∃ d o, d ≠ c ∧ (s.channel d).oxygen = some o ∧ o.source = c

/-! ## CONFIGURE_CHANNEL (02 R34, R35) -/

section
variable {r : Request} {s : State} {c : ChannelNo}

/-- Arguments 4 and 5 of a record to be stored: none, or a source that fits it with its reference (02 R31, R34). -/
theorem oxygenArg_of {new : Channel}
    (h : r.arg 4 = none ∧ new.oxygen = none ∨
      ∃ d ref, new.oxygen = some ⟨d, ref⟩ ∧ r.arg 4 = some (d.1 : Int) ∧ r.arg 5 = some (ref : Int) ∧ ref ≤ 2000 ∧
        new.substance ≠ 15 ∧ d ≠ c ∧ (s.channel d).state ≠ .unused ∧ (s.channel d).substance = 15 ∧
        (s.channel d).stack = new.stack) :
    oxygenArg r s c new.stack new.substance = some new.oxygen := by
  rcases h with ⟨habsent, hnone⟩ | ⟨d, ref, hnew, hsrc, href, hle, hsub, hne, hused, hoxy, hstack⟩
  · simp [oxygenArg, habsent, hnone]
  · have gas : new.substance.1 ≠ 15 := fun h => hsub (Fin.ext h)
    have can : canSource (s.channel d) new.stack = true := by simp [canSource, hused, hoxy, hstack]
    simp [oxygenArg, hsrc, channelArg_of hsrc, natArg_some href (Nat.zero_le _) hle, gas, hne, can, hnew]

/-- Terms in range are stored (02 R34 check 3, R35). -/
theorem configuredChannel_of {new : Channel} (hst : r.stack = new.stack.1) (hsub : r.substance = new.substance.1)
    (hlow : r.arg 1 = some new.low) (hhigh : r.arg 2 = some new.high) (hmin : r.arg 3 = some (new.minMinutes : Int))
    (hidle : new.state = .idle) (hlink : new.link = (s.channel c).link) (horder : new.low ≤ new.high)
    (hmin1 : 1 ≤ new.minMinutes) (hmin30 : new.minMinutes ≤ 30)
    (hgas : new.substance ≠ 15 → -8388608 ≤ new.low ∧ new.high ≤ 8388607)
    (hoxygen : new.substance = 15 → 0 ≤ new.low ∧ new.high ≤ 2100)
    (hterm : oxygenArg r s c new.stack new.substance = some new.oxygen) : configuredChannel r s c = some new := by
  have range : (boundRange new.substance).1 ≤ new.low ∧ new.high ≤ (boundRange new.substance).2 := by
    unfold boundRange
    split
    · next h => exact hoxygen (Fin.ext h)
    · next h => exact hgas fun he => h (congrArg Fin.val he)
  obtain ⟨hlo, hhi⟩ := range
  have low := argIn_some hlow hlo (horder.trans hhi)
  have high := argIn_some hhigh (hlo.trans horder) hhi
  have minutes := natArg_some hmin hmin1 hmin30
  simp only [configuredChannel, index_of hst, index_of hsub, low, high, minutes, hterm, if_pos horder, ← hidle, ← hlink]

theorem configureChannel_collecting (hc : r.target = c.1) (h : (s.channel c).state = .collecting) :
    performConfigureChannel r s = .refused .state := by
  rw [performConfigureChannel, withChannel_eq hc]
  exact if_pos h

theorem configureChannel_inUse {new : Channel} (hc : r.target = c.1) (h : (s.channel c).state ≠ .collecting)
    (hnew : configuredChannel r s c = some new)
    (hdiff : new.stack ≠ (s.channel c).stack ∨ new.substance ≠ (s.channel c).substance)
    (hused : (s.channel c).link ≠ none ∨ ∃ d o, d ≠ c ∧ (s.channel d).oxygen = some o ∧ o.source = c) :
    performConfigureChannel r s = .refused .inUse := by
  rw [performConfigureChannel, withChannel_eq hc, if_neg h, hnew]
  exact if_pos ⟨hdiff, hused.imp Option.isSome_iff_ne_none.mpr names_iff.mpr⟩

theorem configureChannel_done {new : Channel} (hc : r.target = c.1) (h : (s.channel c).state ≠ .collecting)
    (hnew : configuredChannel r s c = some new)
    (hfree : (new.stack = (s.channel c).stack ∧ new.substance = (s.channel c).substance) ∨
      ((s.channel c).link = none ∧ ∀ d, d ≠ c → ∀ o, (s.channel d).oxygen = some o → o.source ≠ c)) :
    performConfigureChannel r s = .done [num c, num (s.channel c).state.number] (s.setChannel c new) := by
  rw [performConfigureChannel, withChannel_eq hc, if_neg h, hnew]
  refine if_neg fun ⟨hdiff, hused⟩ => ?_
  rcases hfree with ⟨hst, hsub⟩ | ⟨hlink, hnames⟩
  · exact hdiff.elim (· hst) (· hsub)
  · rcases hused with hlinked | hnamed
    · rw [hlink] at hlinked; cases hlinked
    · obtain ⟨d, o, hd, ho, he⟩ := names_iff.mp hnamed
      exact hnames d hd o ho he

/-! ## START_CHANNEL, STOP_CHANNEL and RELEASE_CHANNEL (02 R36 to R38) -/

theorem startChannel_done (hc : r.target = c.1) (h : (s.channel c).state = .idle) :
    performStartChannel r s = .done [num c] (s.setChannel c { s.channel c with state := .collecting }) := by
  rw [performStartChannel, withChannel_eq hc]
  exact if_neg (not_not.mpr h)

theorem startChannel_refused (hc : r.target = c.1) (h : (s.channel c).state ≠ .idle) :
    performStartChannel r s = .refused .state := by
  rw [performStartChannel, withChannel_eq hc]
  exact if_pos h

theorem stopChannel_done (hc : r.target = c.1) (h : (s.channel c).state = .collecting) :
    performStopChannel r s =
      .done [num c, num ((s.slotPair c).x.loaded.toNat + (s.slotPair c).y.loaded.toNat)]
        (s.setChannel c { s.channel c with state := .idle }) := by
  rw [performStopChannel, withChannel_eq hc]
  exact if_neg (not_not.mpr h)

theorem stopChannel_refused (hc : r.target = c.1) (h : (s.channel c).state ≠ .collecting) :
    performStopChannel r s = .refused .state := by
  rw [performStopChannel, withChannel_eq hc]
  exact if_pos h

theorem releaseChannel_refused (hc : r.target = c.1) (h : (s.channel c).state ≠ .idle) :
    performReleaseChannel r s = .refused .state := by
  rw [performReleaseChannel, withChannel_eq hc]
  exact if_pos h

theorem releaseChannel_held (hc : r.target = c.1) (h : (s.channel c).state = .idle) (hheld : ChannelHeld s c) :
    performReleaseChannel r s = .refused .inUse := by
  rw [performReleaseChannel, withChannel_eq hc, if_neg (not_not.mpr h)]
  rcases hheld with hlink | hdraft | hnames
  · exact if_pos (Option.isSome_iff_ne_none.mpr hlink)
  · rw [if_pos (draftNames_true.mpr hdraft), ite_self]
  · rw [if_pos (names_iff.mpr hnames), ite_self, ite_self]

theorem releaseChannel_done (hc : r.target = c.1) (h : (s.channel c).state = .idle) (hheld : ¬ ChannelHeld s c) :
    performReleaseChannel r s = .done [num c] (s.setChannel c .unused) := by
  obtain ⟨hlink, hdraft, hnames⟩ : ¬ _ ∧ ¬ _ ∧ ¬ _ := by simpa only [ChannelHeld, not_or] using hheld
  rw [performReleaseChannel, withChannel_eq hc, if_neg (not_not.mpr h),
    if_neg (mt Option.isSome_iff_ne_none.mp hlink), if_neg (mt draftNames_true.mp hdraft), if_neg (mt names_iff.mp hnames)]

end

/-- Settles O40: each request by the state of its channel, CONFIGURE_CHANNEL and RELEASE_CHANNEL then by what holds it. -/
theorem channelRequestsChangeRecord : Obligations.ChannelRequestsChangeRecord := by
  refine ⟨fun s p r c ht hc => ⟨fun h => ht.refused (configureChannel_collecting hc h), ?_⟩, fun s p r c hc =>
    ⟨fun ht => ⟨fun h => ht.done (startChannel_done hc h), fun h => ht.refused (startChannel_refused hc h)⟩,
      fun ht => ⟨fun h => ht.done (stopChannel_done hc h), fun h => ht.refused (stopChannel_refused hc h)⟩,
      fun ht => ⟨fun h hheld => ht.done (releaseChannel_done hc h hheld),
        fun h hheld => ht.refused (releaseChannel_held hc h hheld), fun h => ht.refused (releaseChannel_refused hc h)⟩⟩⟩
  intro new h hst hsub hlow hhigh hmin hidle hlink horder hmin1 hmin30 hgas hoxygen hterm
  have stored : configuredChannel r s c = some new :=
    configuredChannel_of hst hsub hlow hhigh hmin hidle hlink horder hmin1 hmin30 hgas hoxygen (oxygenArg_of hterm)
  exact ⟨fun hfree => ht.done (configureChannel_done hc h stored hfree),
    fun hdiff hused => ht.refused (configureChannel_inUse hc h stored hdiff hused)⟩

/-! # The posting slots' law (02 R42, R45) through requests in hand, collections, boundaries, accesses and power, and the
statement that every step keeps it. -/

/-! ## The law with what it needs of the clock -/

/-- The posting slots' law, with a minute in grace in RUN only (04 R70). The whole clock law need not stand between the
steps of one command: a stop completes what is in hand with the part no longer running and the clock not yet STOPPED. -/
structure SlotsKept (s : State) : Prop where
  lawful : SlotLaw s
  grace : s.clock.inGrace.isSome → s.clock.state = .run

theorem not_unset_or_hold {x : ClockState} (h : x = .run ∨ x = .stopped) : ¬ (x = .unset ∨ x = .hold) := by
  rcases h with rfl | rfl <;> decide

/-- No slot becomes LOADED, and a slot LOADED still has its stamp. -/
def Unloads (s t : State) : Prop :=
  ∀ c n, ((t.slotPair c).get n).loaded = true →
    ((s.slotPair c).get n).loaded = true ∧ ((t.slotPair c).get n).stamp = ((s.slotPair c).get n).stamp

theorem Unloads.of_slots {s t : State} (h : t.slots = s.slots) : Unloads s t := fun c n hl => by
  have pair : t.slotPair c = s.slotPair c := congrArg (·.get c) h
  rw [pair] at hl ⊢
  exact ⟨hl, rfl⟩

/-- The posting slots and the clock are as they were. -/
def SameSlots (s t : State) : Prop := t.slots = s.slots ∧ t.clock = s.clock

theorem SameSlots.refl (s : State) : SameSlots s s := ⟨rfl, rfl⟩

section
variable {s t : State}

theorem SlotsKept.current (hs : SlotsKept s) (hrun : s.clock.state = .run) {c : ChannelNo} {n : SlotName}
    (hl : ((s.slotPair c).get n).loaded = true) : isCurrentMinute s.clock ((s.slotPair c).get n).stamp = true :=
  (hs.lawful c).1 hrun n hl

theorem SlotsKept.idle_empty (hs : SlotsKept s) (hidle : s.clock.state = .unset ∨ s.clock.state = .hold) (c : ChannelNo)
    (n : SlotName) : ((s.slotPair c).get n).loaded = false :=
  (hs.lawful c).2.1 hidle n

/-- Without a minute in grace a LOADED slot carries the open minute. -/
theorem SlotsKept.open_minute (hs : SlotsKept s) (hrun : s.clock.state = .run) (hg : s.clock.inGrace = none) {c : ChannelNo}
    {n : SlotName} (hl : ((s.slotPair c).get n).loaded = true) : ((s.slotPair c).get n).stamp = s.clock.position := by
  rcases isCurrentMinute_iff.mp (hs.current hrun hl) with hpos | ⟨g, hsome, -⟩
  · exact hpos
  · rw [hg] at hsome; cases hsome

/-- Where slots are emptied at most, the two slots of a channel stay apart, and what is left to show is what the clock asks of
those LOADED still. -/
theorem SlotsKept.of_unloads (hs : SlotsKept s) (h : Unloads s t)
    (hrun : t.clock.state = .run → ∀ c n, ((t.slotPair c).get n).loaded = true →
      isCurrentMinute t.clock ((t.slotPair c).get n).stamp = true)
    (hidle : t.clock.state = .unset ∨ t.clock.state = .hold → ∀ c n, ¬ ((t.slotPair c).get n).loaded = true)
    (hgrace : t.clock.inGrace.isSome → t.clock.state = .run) : SlotsKept t where
  lawful := fun c => by
    refine ⟨fun ht => hrun ht c, fun ht n => Bool.eq_false_iff.mpr (hidle ht c n), fun hx hy => ?_⟩
    obtain ⟨hx', hxs⟩ := h c .x hx
    obtain ⟨hy', hys⟩ := h c .y hy
    have apart := (hs.lawful c).2.2 hx' hy'
    rwa [← show (t.slotPair c).x.stamp = (s.slotPair c).x.stamp from hxs,
      ← show (t.slotPair c).y.stamp = (s.slotPair c).y.stamp from hys] at apart
  grace := hgrace

/-- Slots emptied at most under a clock that the law reads alike. -/
theorem SlotsKept.unload (hs : SlotsKept s) (h : Unloads s t) (hstate : t.clock.state = s.clock.state)
    (hposition : t.clock.position = s.clock.position) (hgrace : t.clock.inGrace = s.clock.inGrace) : SlotsKept t := by
  refine hs.of_unloads h (fun hrun c n hl => ?_) (fun hidle c n hl => ?_) (by rw [hgrace, hstate]; exact hs.grace)
  · obtain ⟨hl', hstamp⟩ := h c n hl
    rw [hstamp, isCurrentMinute_iff, hposition, hgrace, ← isCurrentMinute_iff]
    exact hs.current (hstate ▸ hrun) hl'
  · have empty := hs.idle_empty (hstate ▸ hidle) c n
    rw [(h c n hl).1] at empty
    cases empty

theorem SlotsKept.same (hs : SlotsKept s) (h : SameSlots s t) : SlotsKept t :=
  hs.unload (.of_slots h.1) (congrArg _ h.2) (congrArg _ h.2) (congrArg _ h.2)

/-- With every slot EMPTY and no minute in grace nothing is left to show. -/
theorem SlotsKept.of_empty (h : ∀ c n, ((t.slotPair c).get n).loaded = false) (hg : t.clock.inGrace = none) :
    SlotsKept t where
  lawful := fun c => by
    refine ⟨fun _ n hl => ?_, fun _ => h c, fun hx => ?_⟩
    · rw [h c n] at hl; cases hl
    · rw [show (t.slotPair c).x.loaded = false from h c .x] at hx; cases hx
  grace := by rw [hg]; nofun

end

/-! ## A collection, a boundary and a stop -/

theorem unloads_collectMinute (m : MinuteStamp) (b : Bool) (s : State) : Unloads s (collectMinute m b s) := fun c n hl => by
  rw [slot_collectMinute] at hl ⊢
  obtain ⟨hl', -, hkept⟩ := collectSlot_loaded hl
  exact ⟨hl', congrArg _ hkept⟩

/-- No slot is LOADED with m behind the collection of m: a slot of a channel that is not COLLECTING is discarded. -/
theorem stamp_collectMinute {m : MinuteStamp} {b : Bool} {s : State} {c : ChannelNo} {n : SlotName}
    (hl : (((collectMinute m b s).slotPair c).get n).loaded = true) :
    (((collectMinute m b s).slotPair c).get n).stamp ≠ m := by
  rw [slot_collectMinute] at hl ⊢
  obtain ⟨-, hm, hkept⟩ := collectSlot_loaded hl
  rwa [hkept]

theorem collectGrace_some {s : State} {g : GraceMinute} (h : s.clock.inGrace = some g) :
    collectGrace s = graceCollected g s := by
  simp only [collectGrace, graceCollected, h, collectMinute_clock]

theorem collectGrace_state (s : State) : (collectGrace s).clock.state = s.clock.state := by
  cases h : s.clock.inGrace with
  | none => rw [collectGrace_none h]
  | some g => rw [collectGrace_some h]; rfl

theorem collectGrace_inGrace (s : State) : (collectGrace s).clock.inGrace = none := by
  cases h : s.clock.inGrace with
  | none => rw [collectGrace_none h, h]
  | some g => rw [collectGrace_some h]; rfl

section
variable {s : State}

theorem SlotsKept.collectGrace (hs : SlotsKept s) : SlotsKept (collectGrace s) := by
  cases h : s.clock.inGrace with
  | none => rwa [collectGrace_none h]
  | some g =>
    have hrun : s.clock.state = .run := hs.grace (by rw [h]; rfl)
    rw [collectGrace_some h]
    refine hs.of_unloads (unloads_collectMinute g.stamp g.internal s) (fun _ c n hl => ?_)
      (fun hidle => absurd hidle (not_unset_or_hold (.inl hrun))) nofun
    obtain ⟨hl', hstamp⟩ := unloads_collectMinute g.stamp g.internal s c n hl
    have later : ((s.slotPair c).get n).stamp ≠ g.stamp := hstamp ▸ stamp_collectMinute hl
    refine isCurrentMinute_iff.mpr (.inl (hstamp.trans ?_))
    rcases isCurrentMinute_iff.mp (hs.current hrun hl') with hpos | ⟨g', hg', he⟩
    · exact hpos
    · cases h.symm.trans hg'
      exact absurd he later

/-- The open minute goes into grace with the slots that carry it. -/
theorem SlotsKept.startGrace (hs : SlotsKept s) (hrun : s.clock.state = .run) (hg : s.clock.inGrace = none) (b : Bool) :
    SlotsKept (startGrace b s) := by
  have opened : SlotsKept { freezeMarks s with clock :=
      { s.clock with
        inGrace := some ⟨s.clock.position, b⟩
        position := s.clock.position.next
        graceTimer := some (s.now + s.clock.graceSetting) } } :=
    hs.of_unloads (.of_slots rfl)
      (fun _ c n hl => isCurrentMinute_iff.mpr (.inr ⟨_, rfl, hs.open_minute hrun hg hl⟩))
      (fun hidle => absurd hidle (not_unset_or_hold (.inl hrun)))
      fun _ => hrun
  unfold Machine.startGrace
  dsimp only
  split
  · exact opened.collectGrace
  · exact opened

/-- At the end of the calendar range the open minute is collected and the clock goes to HOLD (04 R76). -/
theorem SlotsKept.endOfRange (hs : SlotsKept s) (hrun : s.clock.state = .run) (hg : s.clock.inGrace = none) (b : Bool) :
    SlotsKept (endOfRange b s) := by
  have unloads := unloads_collectMinute s.clock.position b (freezeMarks s)
  refine hs.of_unloads unloads nofun (fun _ c n hl => ?_) (fun hsome => ?_)
  · obtain ⟨hl', hstamp⟩ := unloads c n hl
    exact stamp_collectMinute hl (hstamp.trans (hs.open_minute hrun hg hl'))
  · have none_left : (Machine.endOfRange b s).clock.inGrace = none := by
      simp [Machine.endOfRange, hg]
    rw [none_left] at hsome
    cases hsome

theorem SlotsKept.boundary (hs : SlotsKept s) (hrun : s.clock.state = .run) (b : Bool) : SlotsKept (boundary b s) := by
  have collected := hs.collectGrace
  have still_run := (collectGrace_state s).trans hrun
  have none_left := collectGrace_inGrace s
  unfold Machine.boundary
  dsimp only
  split
  · exact collected.endOfRange still_run none_left b
  · exact (collected.startGrace still_run none_left b).unload (.of_slots rfl) rfl rfl rfl

theorem SlotsKept.takePulse (hs : SlotsKept s) : SlotsKept (takePulse s) := by
  unfold Machine.takePulse
  split
  · exact hs
  next hrun =>
  replace hrun := not_not.mp hrun
  split
  · exact hs
  · exact hs.boundary hrun false
  · exact hs.unload (.of_slots rfl) rfl rfl rfl
  · have external : SlotsKept (setSource .external s) := hs.unload (.of_slots rfl) rfl rfl rfl
    exact external.boundary hrun false

theorem loseClock_state (s : State) : (loseClock s).clock.state = s.clock.state := by
  unfold loseClock
  split <;> rfl

theorem SlotsKept.loseClock (hs : SlotsKept s) : SlotsKept (loseClock s) := by
  unfold Machine.loseClock
  split
  · exact hs.unload (.of_slots rfl) rfl rfl rfl
  · exact hs

theorem SlotsKept.expireSupervision (hs : SlotsKept s) : SlotsKept (expireSupervision s) := by
  unfold Machine.expireSupervision
  split
  · next e hrun _ =>
    have advanced : SlotsKept (advanceTo e s) := hs.same ⟨rfl, rfl⟩
    exact advanced.loseClock.boundary ((loseClock_state _).trans hrun) true
  · exact hs

theorem SlotsKept.expireGrace (hs : SlotsKept s) : SlotsKept (expireGrace s) := by
  unfold Machine.expireGrace
  split
  · exact SlotsKept.collectGrace (hs.same ⟨rfl, rfl⟩)
  · exact hs

/-- At the stop a minute in grace is collected; in STOPPED a slot may stay LOADED (04 R81). -/
theorem SlotsKept.stopBlocks (hs : SlotsKept s) : SlotsKept (stopBlocks s) := by
  have stopped {u : State} (hu : SlotsKept u) (hg : u.clock.inGrace = none) :
      SlotsKept (takeUp .engine (stopClock u)) :=
    hu.of_unloads (.of_slots rfl) nofun (fun h => absurd h (not_unset_or_hold (.inr rfl)))
      (fun hsome => by
        have some_left : u.clock.inGrace.isSome = true := hsome
        rw [hg] at some_left
        cases some_left)
  unfold Machine.stopBlocks
  split
  · exact stopped hs.collectGrace (collectGrace_inGrace s)
  · next hrun => exact stopped hs (Option.not_isSome_iff_eq_none.mp (mt hs.grace hrun))

end

/-! ## The posting area -/

section
variable {s : State} {c : ChannelNo} {n : SlotName} {q : PostingSlot}

theorem unloads_setSlot (h : q.loaded = true →
      ((s.slotPair c).get n).loaded = true ∧ q.stamp = ((s.slotPair c).get n).stamp) :
    Unloads s (s.setSlot c n q) := by
  intro d k hl
  rw [slotPair_setSlot] at hl ⊢
  split at hl
  · next hd =>
    subst hd
    rw [if_pos rfl]
    rcases n.eq_or_other k with rfl | rfl
    · rw [SlotPair.get_set_self] at hl ⊢
      exact h hl
    · rw [SlotPair.get_set_other] at hl ⊢
      exact ⟨hl, rfl⟩
  · next hd =>
    rw [if_neg hd]
    exact ⟨hl, rfl⟩

/-- A slot becomes LOADED in RUN with a current minute that the other slot does not carry. -/
theorem SlotsKept.load (hs : SlotsKept s) (hrun : s.clock.state = .run) (hq : isCurrentMinute s.clock q.stamp = true)
    (hother : ((s.slotPair c).get n.other).loaded = true → ((s.slotPair c).get n.other).stamp ≠ q.stamp) :
    SlotsKept (s.setSlot c n q) where
  lawful := fun d => by
    rw [slotPair_setSlot, State.setSlot_clock]
    split
    · next hd =>
      subst hd
      refine ⟨fun _ => n.forall_iff.mpr ⟨fun _ => ?_, fun hl => ?_⟩, fun hidle => ?_, ?_⟩
      · rwa [SlotPair.get_set_self]
      · rw [SlotPair.get_set_other] at hl ⊢
        exact hs.current hrun hl
      · exact absurd hidle (not_unset_or_hold (.inl hrun))
      · cases n with
        | x => exact fun _ hy => (hother hy).symm
        | y => exact fun hx _ => hother hx
    · exact hs.lawful d
  grace := hs.grace

theorem SlotsKept.recordWrite (hs : SlotsKept s) (loc : Nat) (v : Byte) : SlotsKept (recordWrite loc v s) := by
  cases h : selected s with
  | none => rwa [recordWrite_unselected h]
  | some x =>
    obtain ⟨c, n⟩ := x
    by_cases hi : ((s.slotPair c).get n).loaded = true ∨ s.part ≠ .running
    · rwa [recordWrite_ignored h hi]
    · obtain ⟨hl, hp⟩ := not_or.mp hi
      replace hl := Bool.eq_false_iff.mpr hl
      rw [recordWrite_empty h hl (not_not.mp hp)]
      refine hs.unload (unloads_setSlot fun hq => ?_) rfl rfl rfl
      rw [PostingSlot.writeByte_loaded, hl] at hq
      cases hq

theorem SlotsKept.handOver (hs : SlotsKept s) : SlotsKept (handOver s) := by
  cases h : selected s with
  | none => rwa [Machine.handOver, h]
  | some x =>
    obtain ⟨c, n⟩ := x
    by_cases hc : handOverCode s c n = .accepted
    · obtain ⟨hrun, -, -, -, -, hstamp, hother⟩ := handOverCode_accepted.mp hc
      rw [handOver_accepted h hc]
      exact hs.load hrun hstamp hother
    · rw [handOver_refused h hc]
      exact hs.unload (unloads_setSlot fun hl => ⟨hl, rfl⟩) rfl rfl rfl

theorem SlotsKept.windowWrite (hs : SlotsKept s) (p : Port) (loc : Loc) (v : Byte) :
    SlotsKept (windowWrite p loc v s) := by
  have same {t : State} (hslots : t.slots = s.slots) (hclock : t.clock = s.clock) : SlotsKept t :=
    hs.same ⟨hslots, hclock⟩
  by_cases hp : s.part = .stopped
  · rwa [windowWrite_stopped hp]
  rw [windowWrite_run hp]
  split
  · exact hs
  split
  · exact same (blockWrite_slots ..) (blockWrite_clock ..)
  split
  · exact same (goWrite_slots ..) (goWrite_clock ..)
  split
  · exact same (holdPointer_slots ..) (holdPointer_clock ..)
  split
  · exact same (pointerWrite_slots ..) (pointerWrite_clock ..)
  split
  · exact hs
  split
  · unfold postingWrite
    split
    · exact same rfl rfl
    split
    · exact same rfl rfl
    split
    · exact hs.recordWrite _ v
    split
    · exact hs.handOver
    · exact hs
  · exact same rfl rfl

theorem SlotsKept.receiveByte (hs : SlotsKept s) (v : Byte) : SlotsKept (receiveByte v s) := by
  unfold Machine.receiveByte
  split
  · exact hs
  · split
    · have pointed : SlotsKept (pointAt .selector s.portB.pointer s) := hs.same ⟨rfl, rfl⟩
      exact pointed.windowWrite ..
    · split
      · exact hs.same ⟨readAt_slots .., readAt_clock ..⟩
      · exact hs.same ⟨rfl, rfl⟩

/-- What a write of a location by a port leads to. -/
theorem SlotsKept.portWrite (hs : SlotsKept s) (p : Port) (loc : Loc) (v : Byte) :
    Answer.Leads SlotsKept (portWrite p loc v s) := by
  cases p with
  | a =>
    show Answer.Leads _ (frameWrite loc v s)
    unfold frameWrite
    split
    · exact (hs.windowWrite .a loc v).same ⟨rfl, rfl⟩
    · exact hs
  | b =>
    show Answer.Leads _ (valueWrite loc v s)
    unfold valueWrite
    split
    · exact hs.receiveByte v
    · exact hs

/-- A write of a location that belongs to its row only under a condition. -/
theorem SlotsKept.portWrite_if (hs : SlotsKept s) {c : Prop} [Decidable c] (p : Port) (loc : Loc) (v : Byte) :
    Answer.Leads SlotsKept (if c then Machine.portWrite p loc v s else .next s) := by
  split
  · exact hs.portWrite p loc v
  · exact hs

/-- What a read of a location by a port leads to. -/
theorem SlotsKept.portRead (hs : SlotsKept s) (p : Port) (loc : Loc) : Answer.Leads SlotsKept (portRead p loc s) := by
  cases p with
  | a =>
    show Answer.Leads _ (frameRead loc s)
    unfold frameRead
    split
    · exact hs.same ⟨windowRead_slots .., windowRead_clock ..⟩
    · exact hs
  | b =>
    show Answer.Leads _ (selectorRead loc s)
    unfold selectorRead
    split
    · exact hs.receiveByte _
    · exact hs

end

/-! ## Requests -/

/-! ### The requests that reach neither the slots nor the clock -/

theorem createAccount_sameSlots (r : Request) (s : State) : (performCreateAccount r s).Leads (SameSlots s) := by
  unfold performCreateAccount
  split
  · trivial
  · refine Reply.leads_check fun _ => ?_
    split
    · trivial
    · exact ⟨rfl, rfl⟩

theorem setLimits_sameSlots (r : Request) (s : State) : (performSetLimits r s).Leads (SameSlots s) := by
  refine withTarget_leads fun i => Reply.leads_check fun _ => ?_
  split
  · trivial
  · exact ⟨rfl, rfl⟩

theorem linkSource_sameSlots (r : Request) (s : State) : (performLinkSource r s).Leads (SameSlots s) := by
  refine withTarget_leads fun i => Reply.leads_check fun _ => ?_
  split
  · trivial
  · exact ⟨rfl, rfl⟩

theorem activate_sameSlots (r : Request) (s : State) : (performActivate r s).Leads (SameSlots s) := by
  refine withTarget_leads fun i => Reply.leads_check fun _ => ?_
  split
  · trivial
  · exact Reply.leads_check fun _ => Reply.leads_check fun _ => Reply.leads_check fun _ =>
      withClockAndBacklog_leads (⟨rfl, rfl⟩)

theorem amend_sameSlots (r : Request) (s : State) : (performAmend r s).Leads (SameSlots s) := by
  refine withTarget_leads fun i => ?_
  split
  · trivial
  · exact Reply.leads_check fun _ => Reply.leads_check fun _ => Reply.leads_check fun _ =>
      withClockAndBacklog_leads ⟨State.setLinkOf_slots .., State.setLinkOf_clock ..⟩

theorem reassign_sameSlots (r : Request) (s : State) : (performReassign r s).Leads (SameSlots s) := by
  refine withTarget_leads fun i => ?_
  split
  · trivial
  · exact Reply.leads_check fun _ => Reply.leads_check fun _ => Reply.leads_check fun _ =>
      withClockAndBacklog_leads ⟨State.setLinkOf_slots .., State.setLinkOf_clock ..⟩

theorem retire_sameSlots (r : Request) (s : State) : (performRetire r s).Leads (SameSlots s) :=
  withTarget_leads fun _ => Reply.leads_check fun _ =>
    withClockAndBacklog_leads ⟨State.setLinkOf_slots .., State.setLinkOf_clock ..⟩

theorem deleteDraft_sameSlots (r : Request) (s : State) : (performDeleteDraft r s).Leads (SameSlots s) :=
  withTarget_leads fun _ => Reply.leads_check fun _ => ⟨rfl, rfl⟩

theorem certify_sameSlots (r : Request) (s : State) : (performCertify r s).Leads (SameSlots s) := by
  refine withTarget_leads fun i => ?_
  split
  · trivial
  · split <;> exact ⟨rfl, rfl⟩

theorem mark_sameSlots (r : Request) (s : State) : (performMark r s).Leads (SameSlots s) := by
  refine withTarget_leads fun i => ?_
  split
  case h_3 => trivial
  all_goals
    split
    · trivial
    · exact Reply.leads_check fun _ => ⟨rfl, rfl⟩

theorem configureChannel_sameSlots (r : Request) (s : State) : (performConfigureChannel r s).Leads (SameSlots s) := by
  refine withChannel_leads fun c => Reply.leads_check fun _ => ?_
  split
  · trivial
  · exact Reply.leads_check fun _ => ⟨rfl, rfl⟩

theorem startChannel_sameSlots (r : Request) (s : State) : (performStartChannel r s).Leads (SameSlots s) :=
  withChannel_leads fun _ => Reply.leads_check fun _ => ⟨rfl, rfl⟩

theorem stopChannel_sameSlots (r : Request) (s : State) : (performStopChannel r s).Leads (SameSlots s) :=
  withChannel_leads fun _ => Reply.leads_check fun _ => ⟨rfl, rfl⟩

theorem releaseChannel_sameSlots (r : Request) (s : State) : (performReleaseChannel r s).Leads (SameSlots s) :=
  withChannel_leads fun _ => Reply.leads_check fun _ => Reply.leads_check fun _ => Reply.leads_check fun _ =>
    Reply.leads_check fun _ => ⟨rfl, rfl⟩

theorem readChannel_sameSlots (r : Request) (s : State) : (performReadChannel r s).Leads (SameSlots s) :=
  withChannel_leads fun _ => trivial

theorem setAllowance_sameSlots (r : Request) (s : State) : (performSetAllowance r s).Leads (SameSlots s) := by
  unfold performSetAllowance
  split
  · exact ⟨storeAllowances_slots .., storeAllowances_clock ..⟩
  · trivial

theorem readStack_sameSlots (r : Request) (s : State) : (performReadStack r s).Leads (SameSlots s) := by
  unfold performReadStack
  split <;> trivial

theorem ackEpisode_sameSlots (r : Request) (s : State) : (performAckEpisode r s).Leads (SameSlots s) := by
  unfold performAckEpisode
  split
  · split
    · trivial
    · split
      · trivial
      · exact Reply.leads_check fun _ => ⟨rfl, rfl⟩
  · trivial

theorem readEpisode_sameSlots (r : Request) (s : State) : (performReadEpisode r s).Leads (SameSlots s) := by
  unfold performReadEpisode
  split
  · trivial
  · trivial
  · split <;> trivial

theorem find_sameSlots (r : Request) (s : State) : (performFind r s).Leads (SameSlots s) := by
  unfold performFind
  split
  · trivial
  · split
    · trivial
    · exact .refl s

theorem readAccount_sameSlots (r : Request) (s : State) : (performReadAccount r s).Leads (SameSlots s) := by
  unfold performReadAccount
  split <;> trivial

theorem setFeedInput_sameSlots (r : Request) (s : State) : (performSetFeedInput r s).Leads (SameSlots s) := by
  unfold performSetFeedInput
  split
  · exact ⟨rfl, rfl⟩
  · trivial

theorem declareAbnormal_sameSlots (r : Request) (s : State) : (performDeclareAbnormal r s).Leads (SameSlots s) := by
  unfold performDeclareAbnormal
  split
  · trivial
  · dsimp only
    split
    · exact ⟨rfl, rfl⟩
    · trivial

theorem endAbnormal_sameSlots (r : Request) (s : State) : (performEndAbnormal r s).Leads (SameSlots s) := by
  unfold performEndAbnormal
  split
  · trivial
  · dsimp only
    split
    · exact ⟨rfl, rfl⟩
    · trivial

/-! ### The requests that empty every slot (02 R45) -/

/-- Every slot changed to an EMPTY one is EMPTY. -/
theorem mapSlots_empty {f : PostingSlot → PostingSlot} (hf : ∀ p, (f p).loaded = false) (s : State) (c : ChannelNo)
    (n : SlotName) : (((mapSlots f s).slotPair c).get n).loaded = false := by
  have pair : (mapSlots f s).slotPair c = ⟨f (s.slotPair c).x, f (s.slotPair c).y⟩ := get_tabulate ..
  rw [pair]
  cases n <;> exact hf _

theorem PostingSlot.discardCalendar_empty (p : PostingSlot) : p.discardCalendar.loaded = false := by
  unfold PostingSlot.discardCalendar
  split
  · rfl
  · next h => exact Bool.eq_false_iff.mpr h

theorem stateCalendar_slotsKept (m : MinuteStamp) (s : State) : SlotsKept (stateCalendar m s) :=
  .of_empty (mapSlots_empty PostingSlot.discardCalendar_empty s) rfl

theorem resumeAt_slotsKept (m : MinuteStamp) (s : State) : SlotsKept (resumeAt m s) :=
  .of_empty (mapSlots_empty (fun _ => rfl) s) rfl

theorem setCalendar_slotsKept (r : Request) (s : State) : (performSetCalendar r s).Leads SlotsKept := by
  unfold performSetCalendar
  split
  · trivial
  · exact Reply.leads_check fun _ => Reply.leads_check fun _ => stateCalendar_slotsKept ..

theorem resume_slotsKept (r : Request) (s : State) : (performResume r s).Leads SlotsKept := by
  cases h : performResume r s with
  | refused o => trivial
  | read v snap => trivial
  | done v t =>
    obtain ⟨p, S, rfl | rfl⟩ := performResume_done r s v t h
    · exact resumeAt_slotsKept ..
    · exact resumeAt_slotsKept ..

/-! ### Every request -/

theorem setGrace_slotsKept {s : State} (hs : SlotsKept s) (r : Request) : (performSetGrace r s).Leads SlotsKept := by
  unfold performSetGrace
  split
  · exact hs.unload (.of_slots rfl) rfl rfl rfl
  · trivial

/-- Whatever is requested, a DONE leads to lawful slots. -/
theorem performRequest_slotsKept {s : State} (hs : SlotsKept s) (c : RequestCode) (r : Request) :
    (performRequest c r s).Leads SlotsKept := by
  have same {reply : Reply} (h : reply.Leads (SameSlots s)) : reply.Leads SlotsKept := h.mono fun _ => hs.same
  cases c with
  | createAccount => exact same (createAccount_sameSlots r s)
  | setLimits => exact same (setLimits_sameSlots r s)
  | linkSource => exact same (linkSource_sameSlots r s)
  | activate => exact same (activate_sameSlots r s)
  | amend => exact same (amend_sameSlots r s)
  | reassign => exact same (reassign_sameSlots r s)
  | retire => exact same (retire_sameSlots r s)
  | deleteDraft => exact same (deleteDraft_sameSlots r s)
  | certify => exact same (certify_sameSlots r s)
  | mark => exact same (mark_sameSlots r s)
  | configureChannel => exact same (configureChannel_sameSlots r s)
  | startChannel => exact same (startChannel_sameSlots r s)
  | stopChannel => exact same (stopChannel_sameSlots r s)
  | releaseChannel => exact same (releaseChannel_sameSlots r s)
  | readChannel => exact same (readChannel_sameSlots r s)
  | setAllowance => exact same (setAllowance_sameSlots r s)
  | readStack => exact same (readStack_sameSlots r s)
  | ackEpisode => exact same (ackEpisode_sameSlots r s)
  | readEpisode => exact same (readEpisode_sameSlots r s)
  | find => exact same (find_sameSlots r s)
  | readAccount => exact same (readAccount_sameSlots r s)
  | setFeedInput => exact same (setFeedInput_sameSlots r s)
  | declareAbnormal => exact same (declareAbnormal_sameSlots r s)
  | endAbnormal => exact same (endAbnormal_sameSlots r s)
  | setGrace => exact setGrace_slotsKept hs r
  | setCalendar => exact setCalendar_slotsKept r s
  | resume => exact resume_slotsKept r s

section
variable {s : State}

theorem SlotsKept.answered (hs : SlotsKept s) (o : Owner) (p : Port) (c : RequestCode) (r : Request) :
    SlotsKept (finish o (answer p r.code (performRequest c r s) s)) := by
  have leads := performRequest_slotsKept hs c r
  have answered : SlotsKept (answer p r.code (performRequest c r s) s) := by
    cases h : performRequest c r s with
    | refused out => exact hs.same ⟨complete_slots .., complete_clock ..⟩
    | done v t =>
      rw [h] at leads
      exact leads.same ⟨complete_slots .., complete_clock ..⟩
    | read v snap =>
      exact hs.same ⟨(complete_slots ..).trans (setView_slots ..), (complete_clock ..).trans (setView_clock ..)⟩
  exact answered.same ⟨finish_slots .., finish_clock ..⟩

theorem SlotsKept.completeAll (hs : SlotsKept s) : SlotsKept (completeAll s) :=
  completeAll_induct (fun _ o p c r ht _ => ht.answered o p c r) hs

theorem SlotsKept.completeEarlier (hs : SlotsKept s) (o : Owner) : SlotsKept (completeEarlier o s) :=
  completeEarlier_induct (fun _ o p c r ht _ => ht.answered o p c r) hs o

theorem SlotsKept.runRequest (hs : SlotsKept s) (c : RequestCode) :
    Answer.Leads SlotsKept (runRequest c (performRequest c) s) := by
  unfold Machine.runRequest
  split
  · exact hs
  · exact (hs.completeEarlier _).answered ..

/-- An absorption whose effect reaches neither the slots nor the clock. -/
theorem SlotsKept.absorbHead {effect : State → State} (hs : SlotsKept s) (hslots : ∀ t, (effect t).slots = t.slots)
    (hclock : ∀ t, (effect t).clock = t.clock) : SlotsKept (absorbHead effect s) :=
  (hs.completeEarlier .engine).same
    ⟨(removeHead_slots _).trans (hslots _), (removeHead_clock _).trans (hclock _)⟩

/-! ## The rows of absorptions, power and the ports -/

theorem SlotsKept.execResultAbsorption (hs : SlotsKept s) : Answer.Leads SlotsKept (execResultAbsorption s) := by
  unfold Machine.execResultAbsorption
  split
  · exact hs.absorbHead (absorbResult_slots _) (absorbResult_clock _)
  all_goals exact hs

theorem SlotsKept.execStackEntryAbsorption (hs : SlotsKept s) :
    Answer.Leads SlotsKept (execStackEntryAbsorption s) := by
  unfold Machine.execStackEntryAbsorption
  split
  · exact hs.absorbHead (absorbStack_slots _) (absorbStack_clock _)
  all_goals exact hs

theorem SlotsKept.execDayEndAbsorption (hs : SlotsKept s) : Answer.Leads SlotsKept (execDayEndAbsorption s) := by
  unfold Machine.execDayEndAbsorption
  split
  · exact hs.absorbHead (closeDay_slots _ _) (closeDay_clock _ _)
  all_goals exact hs

theorem SlotsKept.execYearEndAbsorption (hs : SlotsKept s) : Answer.Leads SlotsKept (execYearEndAbsorption s) := by
  unfold Machine.execYearEndAbsorption
  split
  · exact hs.absorbHead (closeYear_slots _) (closeYear_clock _)
  all_goals exact hs

theorem SlotsKept.execGapWalk (hs : SlotsKept s) : Answer.Leads SlotsKept (execGapWalk s) := by
  unfold Machine.execGapWalk
  split
  · exact hs.absorbHead (walkGap_slots _ _ _) (walkGap_clock _ _ _)
  all_goals exact hs

theorem sameSlots_changeLine (i : StackNo) (level : Bool) (s : State) : SameSlots s (changeLine i level s) := by
  unfold changeLine
  split
  · exact .refl s
  · dsimp only
    split <;> exact ⟨rfl, rfl⟩

theorem sameSlots_expireDebounce (i : StackNo) (s : State) : SameSlots s (expireDebounce i s) := by
  unfold expireDebounce
  dsimp only
  split
  · exact .refl s
  · split
    · exact .refl s
    · exact ⟨rfl, rfl⟩

theorem SlotsKept.beginStop (hs : SlotsKept s) : SlotsKept (beginStop s) := by
  unfold Machine.beginStop
  split
  · have stopping : SlotsKept { s with part := .stopping } := hs.same ⟨rfl, rfl⟩
    exact stopping.completeAll.stopBlocks
  · exact hs

/-- After a restart every slot is EMPTY and no minute is in grace (02 R40, 04 R83). -/
theorem volatileReset_slotsKept (s : State) : SlotsKept (volatileReset s) := by
  refine .of_empty (fun c n => ?_) rfl
  have pair : (volatileReset s).slotPair c = .reset := get_replicate ..
  rw [pair, slot_reset]
  rfl

theorem SlotsKept.execRestart (hs : SlotsKept s) : Answer.Leads SlotsKept (execRestart s) := by
  unfold Machine.execRestart
  split
  · exact volatileReset_slotsKept s
  · exact hs

theorem execPowerOn_slotsKept (s : State) : Answer.Leads SlotsKept (execPowerOn s) := by
  have reset := volatileReset_slotsKept s
  unfold execPowerOn
  dsimp only
  split
  · exact reset.same ⟨rfl, rfl⟩
  · exact reset.of_unloads (.of_slots rfl) nofun (fun h => absurd h (not_unset_or_hold (.inr rfl))) nofun

theorem SlotsKept.execPartStop (hs : SlotsKept s) : Answer.Leads SlotsKept (execPartStop s) := by
  unfold Machine.execPartStop
  split
  · exact hs.same ⟨rfl, rfl⟩
  · exact hs

theorem SlotsKept.execFrameStart (hs : SlotsKept s) : Answer.Leads SlotsKept (execFrameStart s) := by
  unfold Machine.execFrameStart
  split
  · exact hs
  · exact hs.same ⟨rfl, rfl⟩

theorem SlotsKept.execFrameHeader (hs : SlotsKept s) (header : Byte) :
    Answer.Leads SlotsKept (execFrameHeader header s) := by
  unfold Machine.execFrameHeader
  split
  · exact hs.same ⟨rfl, rfl⟩
  · exact hs

theorem SlotsKept.execAnswerSent (hs : SlotsKept s) : Answer.Leads SlotsKept (execAnswerSent s) := by
  unfold Machine.execAnswerSent
  split
  · exact hs
  · exact hs.same ⟨rfl, rfl⟩

theorem SlotsKept.execRegisterWrite (hs : SlotsKept s) (p : Port) (loc : Loc) (v : Byte) :
    Answer.Leads SlotsKept (execRegisterWrite p loc v s) := by
  unfold Machine.execRegisterWrite
  split
  · exact hs
  · exact hs.portWrite p loc v

end

/-! ## Every command and every step -/

/-- Whatever the command, it leads from lawful slots to lawful slots. -/
theorem SlotsKept.exec {s : State} (hs : SlotsKept s) (c : Instr) : Answer.Leads SlotsKept (exec c s) := by
  cases c with
  | minpPulse => exact hs.completeAll.takePulse
  | supervisionExpiry => exact hs.completeAll.expireSupervision
  | graceExpiry => exact hs.completeAll.expireGrace
  | feedLineChange i level => exact hs.completeAll.same (sameSlots_changeLine i level _)
  | debounceExpiry i => exact hs.completeAll.same (sameSlots_expireDebounce i _)
  | supplyLow | rstnLow => exact hs.beginStop.same ⟨rfl, rfl⟩
  | partStop => exact hs.execPartStop
  | supplyRestored | rstnHigh => exact hs.same ⟨rfl, rfl⟩
  | restart => exact hs.execRestart
  | powerOn => exact execPowerOn_slotsKept s
  | resultAbsorption => exact hs.execResultAbsorption
  | stackEntryAbsorption => exact hs.execStackEntryAbsorption
  | dayEndAbsorption => exact hs.execDayEndAbsorption
  | yearEndAbsorption => exact hs.execYearEndAbsorption
  | gapWalk => exact hs.execGapWalk
  | createAccount => exact hs.runRequest .createAccount
  | setLimits => exact hs.runRequest .setLimits
  | linkSource => exact hs.runRequest .linkSource
  | activate => exact hs.runRequest .activate
  | amend => exact hs.runRequest .amend
  | reassign => exact hs.runRequest .reassign
  | retire => exact hs.runRequest .retire
  | deleteDraft => exact hs.runRequest .deleteDraft
  | certify => exact hs.runRequest .certify
  | mark => exact hs.runRequest .mark
  | configureChannel => exact hs.runRequest .configureChannel
  | startChannel => exact hs.runRequest .startChannel
  | stopChannel => exact hs.runRequest .stopChannel
  | releaseChannel => exact hs.runRequest .releaseChannel
  | readChannel => exact hs.runRequest .readChannel
  | setAllowance => exact hs.runRequest .setAllowance
  | readStack => exact hs.runRequest .readStack
  | setFeedInput => exact hs.runRequest .setFeedInput
  | declareAbnormal => exact hs.runRequest .declareAbnormal
  | endAbnormal => exact hs.runRequest .endAbnormal
  | ackEpisode => exact hs.runRequest .ackEpisode
  | readEpisode => exact hs.runRequest .readEpisode
  | find => exact hs.runRequest .find
  | readAccount => exact hs.runRequest .readAccount
  | setCalendar => exact hs.runRequest .setCalendar
  | setGrace => exact hs.runRequest .setGrace
  | resume => exact hs.runRequest .resume
  | go p v | viewPointerWrite p v => exact hs.portWrite p _ v
  | registerWrite p loc v => exact hs.execRegisterWrite p loc v
  | recordWrite loc v | enableWrite loc v | maskWrite loc v => exact hs.portWrite_if .a loc v
  | handOver v => exact hs.completeAll.portWrite .a _ v
  | trackingAndVectorBaseWrite v | pendingClear v | endOfService v | detailPointerWrite v => exact hs.portWrite .a _ v
  | calendarCapture p | viewDataRead p => exact hs.portRead p _
  | vectorRead | detailDataRead => exact hs.portRead .a _
  | readSelector v | writeSelector v | valueByte v => exact hs.receiveByte v
  | framingError | rxdBreak | breakEnd | frameEnd => exact hs.same ⟨rfl, rfl⟩
  | answerSent => exact hs.execAnswerSent
  | frameStart => exact hs.execFrameStart
  | frameHeader header => exact hs.execFrameHeader header

/-- An idle step takes a due expiry, shifts a byte out or lets a second pass. -/
theorem SlotsKept.idle {s : State} (hs : SlotsKept s) : Answer.Leads SlotsKept (idle s) := by
  unfold Machine.idle
  split
  · exact hs.exec _
  · split
    · next t ht =>
      refine hs.same ?_
      unfold shiftPlainByte at ht
      split at ht
      · split at ht
        · cases ht
        · cases ht; exact ⟨rfl, rfl⟩
      all_goals cases ht
    · exact hs.same ⟨rfl, rfl⟩

theorem SlotsKept.step {s : State} (hs : SlotsKept s) : Answer.Leads SlotsKept (step s) := by
  unfold Machine.step
  split
  · next c rest _ => exact (hs.same ⟨rfl, rfl⟩ : SlotsKept { s with pending := rest }).exec c
  · exact hs.idle

/-- Settles O58: the clock's law gives what the slots' law needs of the clock, and every step keeps the two together. -/
theorem stepKeepsSlotLaw : Obligations.StepKeepsSlotLaw := by
  intro s t hclock hslots hstep
  obtain ⟨-, -, hgrace, -⟩ := hclock
  have leads := SlotsKept.step (s := s) ⟨hslots, hgrace⟩
  rw [hstep] at leads
  exact leads.lawful

end Sys2Proof.Machine
end

section
/-! SUPPORT. The stacks and abnormal operation (03). -/

namespace Sys2Proof.Machine

/-! ## The requests that reach the tables only -/

/-- Only the accounts, the channel records and the Episode List may differ. -/
def TablesOnly (s t : State) : Prop := t = { s with accounts := t.accounts, channels := t.channels, episodes := t.episodes }

theorem tablesOnly_setLinkOf {s t : State} (h : TablesOnly s t) (c : Option ChannelNo) (l : Option SlotNo) :
    TablesOnly s (t.setLinkOf c l) := by
  unfold TablesOnly at h ⊢
  rw [h]
  cases c <;> rfl

theorem createAccount_tablesOnly (r : Request) (s : State) : (performCreateAccount r s).Leads (TablesOnly s) := by
  unfold performCreateAccount
  split
  · trivial
  · refine Reply.leads_check fun _ => ?_
    split
    · trivial
    · rfl

theorem setLimits_tablesOnly (r : Request) (s : State) : (performSetLimits r s).Leads (TablesOnly s) := by
  refine withTarget_leads fun i => Reply.leads_check fun _ => ?_
  split
  · trivial
  · rfl

theorem linkSource_tablesOnly (r : Request) (s : State) : (performLinkSource r s).Leads (TablesOnly s) := by
  refine withTarget_leads fun i => Reply.leads_check fun _ => ?_
  split
  · trivial
  · rfl

theorem activate_tablesOnly (r : Request) (s : State) : (performActivate r s).Leads (TablesOnly s) := by
  refine withTarget_leads fun i => Reply.leads_check fun _ => ?_
  split
  · trivial
  · exact Reply.leads_check fun _ => Reply.leads_check fun _ => Reply.leads_check fun _ => withClockAndBacklog_leads rfl

theorem amend_tablesOnly (r : Request) (s : State) : (performAmend r s).Leads (TablesOnly s) := by
  refine withTarget_leads fun i => ?_
  split
  · trivial
  · exact Reply.leads_check fun _ => Reply.leads_check fun _ => Reply.leads_check fun _ =>
      withClockAndBacklog_leads (tablesOnly_setLinkOf (by rfl) _ _)

theorem reassign_tablesOnly (r : Request) (s : State) : (performReassign r s).Leads (TablesOnly s) := by
  refine withTarget_leads fun i => ?_
  split
  · trivial
  · next c _ =>
    refine Reply.leads_check fun _ => Reply.leads_check fun _ => Reply.leads_check fun _ => withClockAndBacklog_leads ?_
    exact tablesOnly_setLinkOf (tablesOnly_setLinkOf (by rfl) _ _) (some c) _

theorem retire_tablesOnly (r : Request) (s : State) : (performRetire r s).Leads (TablesOnly s) :=
  withTarget_leads fun _ => Reply.leads_check fun _ => withClockAndBacklog_leads (tablesOnly_setLinkOf (by rfl) _ _)

theorem deleteDraft_tablesOnly (r : Request) (s : State) : (performDeleteDraft r s).Leads (TablesOnly s) :=
  withTarget_leads fun _ => Reply.leads_check fun _ => by rfl

theorem certify_tablesOnly (r : Request) (s : State) : (performCertify r s).Leads (TablesOnly s) := by
  refine withTarget_leads fun i => ?_
  split
  · trivial
  · split <;> rfl

theorem mark_tablesOnly (r : Request) (s : State) : (performMark r s).Leads (TablesOnly s) := by
  refine withTarget_leads fun i => ?_
  split
  case h_3 => trivial
  all_goals
    split
    · trivial
    · exact Reply.leads_check fun _ => rfl

theorem configureChannel_tablesOnly (r : Request) (s : State) : (performConfigureChannel r s).Leads (TablesOnly s) := by
  refine withChannel_leads fun c => Reply.leads_check fun _ => ?_
  split
  · trivial
  · exact Reply.leads_check fun _ => rfl

theorem startChannel_tablesOnly (r : Request) (s : State) : (performStartChannel r s).Leads (TablesOnly s) :=
  withChannel_leads fun _ => Reply.leads_check fun _ => by rfl

theorem stopChannel_tablesOnly (r : Request) (s : State) : (performStopChannel r s).Leads (TablesOnly s) :=
  withChannel_leads fun _ => Reply.leads_check fun _ => by rfl

theorem releaseChannel_tablesOnly (r : Request) (s : State) : (performReleaseChannel r s).Leads (TablesOnly s) :=
  withChannel_leads fun _ => Reply.leads_check fun _ => Reply.leads_check fun _ => Reply.leads_check fun _ =>
    Reply.leads_check fun _ => by rfl

theorem readChannel_tablesOnly (r : Request) (s : State) : (performReadChannel r s).Leads (TablesOnly s) :=
  withChannel_leads fun _ => trivial

theorem readStack_tablesOnly (r : Request) (s : State) : (performReadStack r s).Leads (TablesOnly s) := by
  unfold performReadStack
  split <;> trivial

theorem ackEpisode_tablesOnly (r : Request) (s : State) : (performAckEpisode r s).Leads (TablesOnly s) := by
  unfold performAckEpisode
  split
  · split
    · trivial
    · split
      · trivial
      · exact Reply.leads_check fun _ => rfl
  · trivial

theorem readEpisode_tablesOnly (r : Request) (s : State) : (performReadEpisode r s).Leads (TablesOnly s) := by
  unfold performReadEpisode
  split
  · trivial
  · trivial
  · split <;> trivial

theorem find_tablesOnly (r : Request) (s : State) : (performFind r s).Leads (TablesOnly s) := by
  unfold performFind
  split
  · trivial
  · split
    · trivial
    · rfl

theorem readAccount_tablesOnly (r : Request) (s : State) : (performReadAccount r s).Leads (TablesOnly s) := by
  unfold performReadAccount
  split <;> trivial

/-- The requests of the engine, SET_ALLOWANCE apart, change no more than the three tables. -/
theorem engineRequest_tablesOnly {c : RequestCode} (howner : c.owner = .engine) (hne : c ≠ .setAllowance) (r : Request)
    (s : State) : (performRequest c r s).Leads (TablesOnly s) := by
  cases c with
  | setFeedInput | declareAbnormal | endAbnormal | setCalendar | setGrace | resume => cases howner
  | setAllowance => exact absurd rfl hne
  | createAccount => exact createAccount_tablesOnly r s
  | setLimits => exact setLimits_tablesOnly r s
  | linkSource => exact linkSource_tablesOnly r s
  | activate => exact activate_tablesOnly r s
  | amend => exact amend_tablesOnly r s
  | reassign => exact reassign_tablesOnly r s
  | retire => exact retire_tablesOnly r s
  | deleteDraft => exact deleteDraft_tablesOnly r s
  | certify => exact certify_tablesOnly r s
  | mark => exact mark_tablesOnly r s
  | configureChannel => exact configureChannel_tablesOnly r s
  | startChannel => exact startChannel_tablesOnly r s
  | stopChannel => exact stopChannel_tablesOnly r s
  | releaseChannel => exact releaseChannel_tablesOnly r s
  | readChannel => exact readChannel_tablesOnly r s
  | readStack => exact readStack_tablesOnly r s
  | ackEpisode => exact ackEpisode_tablesOnly r s
  | readEpisode => exact readEpisode_tablesOnly r s
  | find => exact find_tablesOnly r s
  | readAccount => exact readAccount_tablesOnly r s

/-! # The allowance records and the STOP demands (03 R58 to R64): what an evaluation, SET_ALLOWANCE and a STACK entry do. -/

/-! ## The evaluation (03 R59) -/

/-- An allowance record behind an evaluation of its demand. -/
def StackAllowance.reevaluated (r : StackAllowance) : StackAllowance :=
  { r with demand := r.evaluated, exceeded := r.exceeded || r.evaluated.asserted }

theorem StopDemand.asserted_iff {d : StopDemand} : d.asserted = true ↔ d ≠ .released := by cases d <;> decide

theorem StopDemand.asserted_eq (d : StopDemand) : d.asserted = (d != .released) := by cases d <;> rfl

theorem StackAllowance.evaluated_episode {r : StackAllowance} (h : r.episodeAllowance ≤ r.runHh) :
    r.evaluated = .episode := if_pos h

theorem StackAllowance.evaluated_annual {r : StackAllowance} (h : r.runHh < r.episodeAllowance)
    (hy : r.annualAllowance ≤ r.yearAbnHh) : r.evaluated = .annual := by
  rw [StackAllowance.evaluated, if_neg (by omega), if_pos hy]

theorem StackAllowance.evaluated_released {r : StackAllowance} (h : r.runHh < r.episodeAllowance)
    (hy : r.yearAbnHh < r.annualAllowance) : r.evaluated = .released := by
  rw [StackAllowance.evaluated, if_neg (by omega), if_neg (by omega)]

theorem allowance_evaluateStop (i j : StackNo) (s : State) :
    (evaluateStop i s).allowance j = if i = j then (s.allowance i).reevaluated else s.allowance j := by
  have stored : (evaluateStop i s).allowance j = (s.setAllowance i (s.allowance i).reevaluated).allowance j := by
    unfold evaluateStop
    dsimp only
    split <;> rfl
  rw [stored, allowance_setAllowance]

theorem events_evaluateStop (i : StackNo) (s : State) :
    (evaluateStop i s).events =
      if (s.allowance i).demand = .released ∧ (s.allowance i).evaluated ≠ .released then s.events.record .stop i
      else s.events := by
  have rise : (!(s.allowance i).demand.asserted && (s.allowance i).evaluated.asserted) = true ↔
      (s.allowance i).demand = .released ∧ (s.allowance i).evaluated ≠ .released := by
    rw [Bool.and_eq_true, Bool.not_eq_true', ← Bool.not_eq_true, StopDemand.asserted_iff, StopDemand.asserted_iff, not_not]
  unfold evaluateStop
  dsimp only
  simp only [rise]
  split <;> rfl

/-- Settles O23: the demand by the cases of the evaluation, the rest by the record that it stores. -/
theorem stopDemandFollowsEvaluation : Obligations.StopDemandFollowsEvaluation := by
  intro i s
  have stored : (evaluateStop i s).allowance i = (s.allowance i).reevaluated := by rw [allowance_evaluateStop, if_pos rfl]
  have demand : ((evaluateStop i s).allowance i).demand = (s.allowance i).evaluated := by rw [stored]; rfl
  have exceeded : ((evaluateStop i s).allowance i).exceeded =
      ((s.allowance i).exceeded || (s.allowance i).evaluated.asserted) := by rw [stored]; rfl
  dsimp only
  rw [demand, exceeded, events_evaluateStop]
  refine ⟨StackAllowance.evaluated_episode, StackAllowance.evaluated_annual, StackAllowance.evaluated_released,
    fun h => ?_, fun h => ?_, stored, fun j hj => ?_, fun h h' => ?_, fun h => ?_, ?_⟩
  · rw [StopDemand.asserted_iff.mpr h, Bool.or_true]
  · rw [h]
    exact Bool.or_false _
  · rw [allowance_evaluateStop, if_neg hj.symm]
  · rw [if_pos ⟨h, h'⟩]
  · exact if_neg fun ⟨hr, hd⟩ => h.elim (· hr) hd
  · rw [← events_evaluateStop]
    exact evaluateStop_frame i s

/-! ## SET_ALLOWANCE (03 R63) -/

/-- The numbers returned for a demand and its reason (assumption 8). -/
theorem StopDemand.returned (d : StopDemand) :
    num d.asserted.toNat = (if d = .released then 0 else 1) ∧ num d.reason = (if d = .annual then 1 else 0) := by
  cases d <;> decide

/-- Settles O42: the arguments pass the checks, and the demand is evaluated on the stored allowances. -/
theorem setAllowanceEvaluatesRun : Obligations.SetAllowanceEvaluatesRun := by
  intro s p r i ep an h htarget hep hep1 hep96 han han2000
  obtain ⟨asserted, reason⟩ := StopDemand.returned ((storeAllowances i ep an s).allowance i).demand
  have performed : performRequest .setAllowance r s = .done
      [num i, num ((storeAllowances i ep an s).allowance i).demand.asserted.toNat,
        num ((storeAllowances i ep an s).allowance i).demand.reason] (storeAllowances i ep an s) := by
    show performSetAllowance r s = _
    simp only [performSetAllowance, index_of htarget, natArg_some hep hep1 hep96, natArg_some han (Nat.zero_le _) han2000]
  rw [asserted, reason] at performed
  exact h.done performed

/-! ## The ABNORMAL_OPERATION episode of a stack (08 R141 to R144) -/

section
variable {s : State} {u : Subject} {k : StackNo}

/-- A qualifying half-hour without a value counts into the OPEN episode of the subject and leaves its peak. -/
theorem qualify_extends (h : (openEpisode s u).isSome) (stamp : HalfHourStamp) :
    qualify u stamp none s = { s with episodes := s.episodes.map (fun ep =>
      if ep.isOpen && ep.subject == u then { ep with length := min 65535 (ep.length + 1) } else ep) } := by
  have extended : ∀ ep : Episode, ep.extend none = { ep with length := min 65535 (ep.length + 1) } := fun ep => by
    cases hp : ep.peak <;> simp [Episode.extend, hp]
  simp only [qualify, if_pos h, extended]

theorem qualify_opens (h : openEpisode s u = none) (stamp : HalfHourStamp) (v : Option Nat) :
    qualify u stamp v s = openNew u stamp v s := by
  simp [qualify, h]

theorem openNew_stack_room (h : s.episodes.length < 32) (stamp : HalfHourStamp) (v : Option Nat) :
    openNew (.abnormalOperation k) stamp v s =
      raiseEvent .abnormalOpened (freeNumber (s.episodes.map (·.number)) 31 s.episodeCounter)
        { s with
          episodes := s.episodes ++ [⟨freeNumber (s.episodes.map (·.number)) 31 s.episodeCounter, .abnormalOperation k,
            stamp, none, 1, v, false, none⟩]
          episodeCounter := nextNumber (freeNumber (s.episodes.map (·.number)) 31 s.episodeCounter) } := by
  rw [openNew, if_pos (show s.episodes.length < Config.listCapacity from h)]

theorem openNew_stack_full (h : 32 ≤ s.episodes.length) (stamp : HalfHourStamp) (v : Option Nat) :
    openNew (.abnormalOperation k) stamp v s = raiseEvent .listFull (128 + k) s := by
  rw [openNew, if_neg (show ¬ s.episodes.length < Config.listCapacity from Nat.not_lt.mpr h)]

theorem qualify_stack_accounts (stamp : HalfHourStamp) (v : Option Nat) :
    (qualify (.abnormalOperation k) stamp v s).accounts = s.accounts := by
  unfold qualify openNew
  split
  · rfl
  · split <;> rfl

/-- No account has the episode of a stack: the end of one changes the list only. -/
theorem endEpisodes_stack (k : StackNo) (stamp : HalfHourStamp) (s : State) :
    endEpisodes (· == .abnormalOperation k) stamp s =
      { s with episodes := endedEpisodes (.abnormalOperation k) stamp s.episodes } := by
  have unfolded : ∀ l : List Episode, (∀ ep ∈ l, ep.subject = .abnormalOperation k) →
      l.foldl (fun t ep => foldEpisode ep t) s = s := fun l hl => by
    induction l with
    | nil => rfl
    | cons ep l ih =>
      have same : foldEpisode ep s = s := by simp only [foldEpisode, hl ep List.mem_cons_self]
      rw [List.foldl_cons, same]
      exact ih fun x hx => hl x (List.mem_cons_of_mem _ hx)
  unfold endEpisodes
  dsimp only
  rw [unfolded]
  · rfl
  · intro ep hep
    have ends := List.of_mem_filter hep
    simpa using (Bool.and_eq_true_iff.mp ends).2

end

/-! ## The absorption of a STACK entry (03 R61, R62) -/

/-- The half-hour stored as the last one absorbed. -/
def StackEntry.asLast (e : StackEntry) : LastHalfHour := ⟨e.stamp, e.fired, e.abnormal⟩

theorem Absorbs.exec_stack {s : State} {e : StackEntry} (h : Absorbs s (.stack e)) :
    exec .stackEntryAbsorption s = .next (removeHead (absorbStack e s)) := by
  show execStackEntryAbsorption s = _
  have absorbed : absorbHead (absorbStack e) s = removeHead (absorbStack e s) := h.absorbHead_eq _
  rw [← absorbed, execStackEntryAbsorption, h.1]

/-- The half-hour counted into the run and the year of its stack. -/
def halfHourCounted (e : StackEntry) (s : State) : State :=
  s.setAllowance e.stack (s.allowance e.stack).countAbnormal

/-- What the evaluation finds: the half-hour counted, then the episode of the stack extended or opened. -/
def stackCounted (e : StackEntry) (s : State) : State :=
  qualify (.abnormalOperation e.stack) e.stamp none (halfHourCounted e s)

section
variable {s : State} {e : StackEntry}

theorem absorbStack_abnormal (h : 1 ≤ e.abnormal) :
    absorbStack e s = setLast e (evaluateStop e.stack (stackCounted e s)) := if_pos h

theorem absorbStack_normal (h : e.abnormal = 0) :
    absorbStack e s = setLast e
      ({ s with episodes := endedEpisodes (.abnormalOperation e.stack) e.stamp s.episodes }.setAllowance e.stack
        (s.allowance e.stack).endRun) := by
  rw [absorbStack, if_neg (by omega), endEpisodes_stack]
  rfl

theorem allowance_setLast (e : StackEntry) (s : State) (j : StackNo) :
    (setLast e s).allowance j =
      if e.stack = j then { s.allowance e.stack with last := some e.asLast } else s.allowance j :=
  allowance_setAllowance ..

theorem allowance_stackCounted (e : StackEntry) (s : State) (j : StackNo) :
    (stackCounted e s).allowance j = if e.stack = j then (s.allowance e.stack).countAbnormal else s.allowance j := by
  have counted : (stackCounted e s).allowance j = (halfHourCounted e s).allowance j :=
    congrArg (·.get j) (qualify_allowances ..)
  rw [counted, halfHourCounted, allowance_setAllowance]

theorem allowance_absorbStack_abnormal (h : 1 ≤ e.abnormal) (j : StackNo) :
    (absorbStack e s).allowance j =
      if e.stack = j then { (s.allowance e.stack).countAbnormal.reevaluated with last := some e.asLast }
      else s.allowance j := by
  rw [absorbStack_abnormal h, allowance_setLast]
  simp only [allowance_evaluateStop, allowance_stackCounted, if_true]
  split <;> rfl

theorem allowance_absorbStack_normal (h : e.abnormal = 0) (j : StackNo) :
    (absorbStack e s).allowance j =
      if e.stack = j then { (s.allowance e.stack).endRun with last := some e.asLast } else s.allowance j := by
  rw [absorbStack_normal h, allowance_setLast]
  simp only [allowance_setAllowance, if_true]
  split <;> rfl

theorem absorbStack_accounts_same (e : StackEntry) (s : State) : (absorbStack e s).accounts = s.accounts := by
  by_cases h : 1 ≤ e.abnormal
  · rw [absorbStack_abnormal h]
    exact (setLast_accounts ..).trans ((evaluateStop_accounts ..).trans (qualify_stack_accounts ..))
  · rw [absorbStack_normal (by omega)]
    rfl

end

/-! ### The episode of an entry with abnormal minutes -/

section
variable {s : State} {e : StackEntry}

theorem stackCounted_extends (h : (openEpisode s (.abnormalOperation e.stack)).isSome) :
    stackCounted e s = { halfHourCounted e s with episodes := s.episodes.map (fun ep =>
      if ep.isOpen && ep.subject == .abnormalOperation e.stack then { ep with length := min 65535 (ep.length + 1) }
      else ep) } :=
  qualify_extends (s := halfHourCounted e s) h _

theorem stackCounted_opens (h : openEpisode s (.abnormalOperation e.stack) = none) (hroom : s.episodes.length < 32) :
    stackCounted e s = raiseEvent .abnormalOpened (freeNumber (s.episodes.map (·.number)) 31 s.episodeCounter)
      { halfHourCounted e s with
        episodes := s.episodes ++ [⟨freeNumber (s.episodes.map (·.number)) 31 s.episodeCounter,
          .abnormalOperation e.stack, e.stamp, none, 1, none, false, none⟩]
        episodeCounter := nextNumber (freeNumber (s.episodes.map (·.number)) 31 s.episodeCounter) } :=
  (qualify_opens (s := halfHourCounted e s) h _ _).trans (openNew_stack_room (s := halfHourCounted e s) hroom _ _)

theorem stackCounted_full (h : openEpisode s (.abnormalOperation e.stack) = none) (hfull : 32 ≤ s.episodes.length) :
    stackCounted e s = raiseEvent .listFull (128 + e.stack) (halfHourCounted e s) :=
  (qualify_opens (s := halfHourCounted e s) h _ _).trans (openNew_stack_full (s := halfHourCounted e s) hfull _ _)

end

/-- The events of an entry with abnormal minutes: those of the episode, then STOP on a rise of the demand. -/
theorem events_absorbStack_abnormal {s : State} {e : StackEntry} (h : 1 ≤ e.abnormal) :
    (absorbStack e s).events =
      if (s.allowance e.stack).demand = .released ∧ (s.allowance e.stack).countAbnormal.evaluated ≠ .released then
        (stackCounted e s).events.record .stop e.stack
      else (stackCounted e s).events := by
  rw [absorbStack_abnormal h]
  show (evaluateStop e.stack (stackCounted e s)).events = _
  rw [events_evaluateStop, allowance_stackCounted, if_pos rfl]
  rfl

theorem episodes_absorbStack_abnormal {s : State} {e : StackEntry} (h : 1 ≤ e.abnormal) :
    (absorbStack e s).episodes = (stackCounted e s).episodes ∧
      (absorbStack e s).episodeCounter = (stackCounted e s).episodeCounter := by
  rw [absorbStack_abnormal h]
  exact ⟨evaluateStop_episodes .., evaluateStop_episodeCounter ..⟩

/-- Settles O22: the record by its counting and evaluation, the episode by its three cases, STOP by the evaluation. -/
theorem stackEntryAbsorbed : Obligations.StackEntryAbsorbed := by
  intro s e h
  refine ⟨_, h.exec_stack, fun j hj => ?others, fun habn => ?abnormal, fun habn => ?normal⟩
  case others =>
    rw [allowance_removeHead_frame]
    by_cases habn : 1 ≤ e.abnormal
    · rw [allowance_absorbStack_abnormal habn, if_neg hj.symm]
    · rw [allowance_absorbStack_normal (by omega), if_neg hj.symm]
  case abnormal =>
    obtain ⟨episodes, counter⟩ := episodes_absorbStack_abnormal (s := s) habn
    have events := events_absorbStack_abnormal (s := s) habn
    dsimp only
    rw [allowance_removeHead_frame, removeHead_episodes, removeHead_episodeCounter, removeHead_events,
      removeHead_allowances, episodes, counter, events]
    refine ⟨?record, fun hopen => ?extended, fun hnone hroom => ?opened, fun hnone hfull => ?full, ?frame⟩
    case record =>
      rw [allowance_absorbStack_abnormal habn, if_pos rfl, StackAllowance.reevaluated, StopDemand.asserted_eq]
      rfl
    case extended =>
      rw [stackCounted_extends hopen]
      exact ⟨rfl, rfl, rfl⟩
    case opened =>
      rw [stackCounted_opens hnone hroom]
      exact ⟨rfl, rfl, rfl⟩
    case full =>
      rw [stackCounted_full hnone hfull]
      exact ⟨rfl, rfl, rfl⟩
    case frame =>
      rw [← events, ← episodes, ← counter]
      show removeHead _ = removeHead _
      exact congrArg removeHead ((absorbStack_frame e s).trans (by rw [absorbStack_accounts_same]))
  case normal =>
    have record := allowance_absorbStack_normal (s := s) habn e.stack
    rw [if_pos rfl] at record
    rw [allowance_removeHead_frame, removeHead_episodes, removeHead_allowances]
    refine ⟨record, ?_, ?_⟩
    · rw [absorbStack_normal habn]
      rfl
    · show removeHead _ = removeHead _
      rw [absorbStack_normal habn]
      rfl

/-! # The Stack Monitor (03 R48 to R57): the FEED lines, the debounce timers and the three requests. -/

/-! ## FEED lines and debounce timers (03 R50, R51) -/

theorem changeLine_same {s : State} {i : StackNo} {level : Bool} (h : s.feedLine i = level) :
    changeLine i level s = s := if_pos h

theorem changeLine_enabled {s : State} {i : StackNo} {level : Bool} (h : s.feedLine i ≠ level)
    (hen : (s.input i).enable = true) (hp : s.part ≠ .stopped) :
    changeLine i level s = { s with feedLines := put s.feedLines i level }.setInput i
      { s.input i with timer := (s.input i).lineTimer s.now level } := by
  rw [changeLine, if_neg h, if_pos ⟨hen, hp⟩]

theorem changeLine_unwatched {s : State} {i : StackNo} {level : Bool} (h : s.feedLine i ≠ level)
    (hoff : ¬ ((s.input i).enable = true ∧ s.part ≠ .stopped)) :
    changeLine i level s = { s with feedLines := put s.feedLines i level } := by
  rw [changeLine, if_neg h, if_neg hoff]

/-- At the taken level the timer is idle, at the opposite one it runs (03 R50). -/
theorem StackInput.lineTimer_eq (r : StackInput) (now : Nat) (level : Bool) :
    r.lineTimer now level = if level = r.takenOn then none else some (now + r.debounce) := by
  simp [StackInput.lineTimer]

theorem expireDebounce_idle {s : State} {i : StackNo} (h : (s.input i).timer = none) : expireDebounce i s = s := by
  simp only [expireDebounce, h]

theorem expireDebounce_stopped {s : State} (i : StackNo) (hp : s.part = .stopped) : expireDebounce i s = s := by
  unfold expireDebounce
  dsimp only
  split
  · rfl
  · exact if_pos hp

theorem expireDebounce_running {s : State} {i : StackNo} {t : Nat} (h : (s.input i).timer = some t)
    (hp : s.part ≠ .stopped) :
    expireDebounce i s = raiseEvent .feed i ({ s with now := max s.now t }.setInput i (s.input i).takeLevel) := by
  simp only [expireDebounce, h]
  exact if_neg hp

theorem StackInput.takeLevel_off {r : StackInput} (h : r.takenOn = true) :
    r.takeLevel = { r with takenOn := false, state := .off, declaration := none, timer := none } := if_pos h

theorem StackInput.takeLevel_on {r : StackInput} (h : r.takenOn = false) :
    r.takeLevel = { r with
      takenOn := true, state := .firing, timer := none, openMarks := ⟨true, r.openMarks.abnormal⟩ } := by
  simp [StackInput.takeLevel, h, StackInput.grow, StackState.marks]

/-- Settles O16: with nothing in hand the event finds the state as it stands. -/
theorem feedLineIsDebounced : Obligations.FeedLineIsDebounced := by
  refine ⟨fun i level s hnone => ?line, fun i s t hnone hp htimer => ?expiry⟩
  case line =>
    have row : exec (.feedLineChange i level) s = .next (changeLine i level s) := by
      show Host.Outcome.next (changeLine i level (completeAll s)) = _
      rw [completeAll_none hnone]
    rw [row]
    refine ⟨fun h => ?_, fun h hen hp => ?_, fun h hen => ?_⟩
    · rw [changeLine_same h]
    · rw [changeLine_enabled h hen hp, StackInput.lineTimer_eq]
      rfl
    · rw [changeLine_unwatched h (by simp [hen])]
  case expiry =>
    have row : exec (.debounceExpiry i) s = .next (expireDebounce i s) := by
      show Host.Outcome.next (expireDebounce i (completeAll s)) = _
      rw [completeAll_none hnone]
    have level : (s.input i).takeLevel =
        if (s.input i).takenOn then
          { s.input i with takenOn := false, state := .off, declaration := none, timer := none }
        else
          { s.input i with
            takenOn := true, state := .firing, timer := none, openMarks := ⟨true, (s.input i).openMarks.abnormal⟩ } := by
      split
      · next h => exact StackInput.takeLevel_off h
      · next h => exact StackInput.takeLevel_on (Bool.eq_false_iff.mpr h)
    rw [row, expireDebounce_running htimer hp, ← level]
    rfl

/-! ## SET_FEED_INPUT, DECLARE_ABNORMAL and END_ABNORMAL (03 R53 to R55) -/

theorem StackInput.configure_eq (r : StackInput) (enable line : Bool) (d now : Nat) :
    r.configure enable d now line =
      if r.enable = true ∧ enable = false then
        { r with enable := false, debounce := d, timer := none, takenOn := false, state := .off, declaration := none }
      else if r.enable = false ∧ enable = true then
        { r with enable := true, debounce := d, timer := if line = r.takenOn then none else some (now + d) }
      else { r with enable := enable, debounce := d } := by
  cases hr : r.enable <;> cases enable <;> simp [StackInput.configure, hr, StackInput.lineTimer_eq]

theorem performSetFeedInput_eq {r : Request} {i : StackNo} {enable : Bool} {d : Nat} (htarget : r.target = i.1)
    (hen : r.arg 1 = some (enable.toNat : Int)) (hd : r.arg 2 = some (d : Int)) (h1 : 1 ≤ d) (h15 : d ≤ 15) (s : State) :
    performSetFeedInput r s = .done
      [num i, num (s.input i).enable.toNat, num ((s.input i).configure enable d s.now (s.feedLine i)).state.number]
      (s.setInput i ((s.input i).configure enable d s.now (s.feedLine i))) := by
  have named : (enable.toNat == 1) = enable := by cases enable <;> rfl
  simp only [performSetFeedInput, index_of htarget, natArg_some hen (Nat.zero_le _) (Bool.toNat_le enable),
    natArg_some hd h1 h15, named]

theorem performDeclareAbnormal_firing {r : Request} {s : State} {i : StackNo} (htarget : r.target = i.1)
    (h : (s.input i).state = .firing) :
    performDeclareAbnormal r s = .done [num i, (declaredAt s.clock).word] (s.setInput i
      { s.input i with state := .abnormal, declaration := some (declaredAt s.clock), openMarks := ⟨true, true⟩ }) := by
  simp [performDeclareAbnormal, index_of htarget, h, StackInput.grow, StackState.marks]

theorem performDeclareAbnormal_state {r : Request} {s : State} {i : StackNo} (htarget : r.target = i.1)
    (h : (s.input i).state ≠ .firing) : performDeclareAbnormal r s = .refused .state := by
  simp [performDeclareAbnormal, index_of htarget, h]

theorem performEndAbnormal_abnormal {r : Request} {s : State} {i : StackNo} {stamp : MinuteStamp}
    (htarget : r.target = i.1) (h : (s.input i).state = .abnormal) (hstamp : (s.input i).declaration = some stamp) :
    performEndAbnormal r s = .done [num i, stamp.word] (s.setInput i
      { s.input i with
        state := .firing, declaration := none, openMarks := ⟨true, (s.input i).openMarks.abnormal⟩ }) := by
  simp [performEndAbnormal, index_of htarget, h, hstamp, StackInput.grow, StackState.marks]

theorem performEndAbnormal_state {r : Request} {s : State} {i : StackNo} (htarget : r.target = i.1)
    (h : (s.input i).state ≠ .abnormal) : performEndAbnormal r s = .refused .state := by
  simp [performEndAbnormal, index_of htarget, h]

/-- Settles O17: request by request. -/
theorem stackMonitorRequests : Obligations.StackMonitorRequests := by
  refine ⟨fun s p r i enable d h htarget hen hd h1 h15 => ?feed, fun s p r i h htarget => ?declare,
    fun s p r i h htarget => ?ending⟩
  case feed =>
    dsimp only
    rw [← StackInput.configure_eq]
    exact h.done (performSetFeedInput_eq htarget hen hd h1 h15 s)
  case declare =>
    exact ⟨fun hf => h.done (performDeclareAbnormal_firing htarget hf),
      fun hf => h.refused (performDeclareAbnormal_state htarget hf)⟩
  case ending =>
    exact ⟨fun stamp ha hstamp => h.done (performEndAbnormal_abnormal htarget ha hstamp),
      fun ha => h.refused (performEndAbnormal_state htarget ha)⟩

/-! # What every command leads to: the rule by which a property of the next state is shown once for every row of the table
and for every step. -/

/-- What the engine does with a queue head (07 R120, R126, R131, R135, 03 R61, R62). -/
def absorbing : Entry → State → State
  | .result e => absorbResult e
  | .stack e => absorbStack e
  | .dayEnd Y D => closeDay Y D
  | .yearEnd Y => closeYear Y
  | .gap g => walkGap g.charged g.count g.start

/-- The stop of a part whose restart RSTN holds back (assumption 13). -/
def heldStopped (s : State) : State := { s with part := .stopped, clock := { s.clock with state := .stopped } }

/-- What has to hold for every command to lead to a property from a state: one entry for each kind of row. -/
structure CommandsLead (P : State → Prop) (s : State) : Prop where
  stay : P s
  request : ∀ c, Answer.Leads P (runRequest c (performRequest c) s)
  absorption : ∀ e, claimedHead s = some e → P (absorbHead (absorbing e) s)
  pulse : P (takePulse (completeAll s))
  supervision : P (expireSupervision (completeAll s))
  grace : P (expireGrace (completeAll s))
  line : ∀ i level, P (changeLine i level (completeAll s))
  debounce : ∀ i, P (expireDebounce i (completeAll s))
  stop : ∀ good high, P { beginStop s with supplyGood := good, rstnHigh := high }
  pins : ∀ good high, P { s with supplyGood := good, rstnHigh := high }
  stopped : s.part = .stopping → s.queue = [] → P { s with part := .stopped }
  restart : ∀ good, P { volatileReset s with supplyGood := good }
  restartHeld : P (heldStopped { volatileReset s with supplyGood := true })
  write : ∀ p loc v, Answer.Leads P (portWrite p loc v s)
  handOver : ∀ v, Answer.Leads P (portWrite .a 0x6C v (completeAll s))
  read : ∀ p loc, Answer.Leads P (portRead p loc s)
  receive : ∀ v, P (receiveByte v s)
  frameStart : Answer.Leads P (execFrameStart s)
  frameHeader : ∀ header, Answer.Leads P (execFrameHeader header s)
  frameEnd : Answer.Leads P (execFrameEnd s)
  framingError : Answer.Leads P (execFramingError s)
  rxdBreak : Answer.Leads P (execRxdBreak s)
  breakEnd : Answer.Leads P (execBreakEnd s)
  answerSent : Answer.Leads P (execAnswerSent s)

section
variable {P : State → Prop} {s : State}

/-- The row of an absorption leads to where the absorption of its kind of queue head leads. -/
theorem CommandsLead.absorptionRow (h : CommandsLead P s) (e : Entry) : Answer.Leads P (exec (absorptionRow e) s) := by
  cases e with
  | result e =>
    show Answer.Leads P (execResultAbsorption s)
    unfold execResultAbsorption
    split
    · next hd => exact h.absorption (.result _) hd
    all_goals exact h.stay
  | stack e =>
    show Answer.Leads P (execStackEntryAbsorption s)
    unfold execStackEntryAbsorption
    split
    · next hd => exact h.absorption (.stack _) hd
    all_goals exact h.stay
  | dayEnd Y D =>
    show Answer.Leads P (execDayEndAbsorption s)
    unfold execDayEndAbsorption
    split
    · next hd => exact h.absorption (.dayEnd _ _) hd
    all_goals exact h.stay
  | yearEnd Y =>
    show Answer.Leads P (execYearEndAbsorption s)
    unfold execYearEndAbsorption
    split
    · next hd => exact h.absorption (.yearEnd _) hd
    all_goals exact h.stay
  | gap g =>
    show Answer.Leads P (execGapWalk s)
    unfold execGapWalk
    split
    · next hd => exact h.absorption (.gap _) hd
    all_goals exact h.stay

/-- A write of a location that belongs to its row only under a condition. -/
theorem CommandsLead.write_if (h : CommandsLead P s) {c : Prop} [Decidable c] (p : Port) (loc : Loc) (v : Byte) :
    Answer.Leads P (if c then portWrite p loc v s else .next s) := by
  split
  · exact h.write p loc v
  · exact h.stay

theorem CommandsLead.registerWrite (h : CommandsLead P s) (p : Port) (loc : Loc) (v : Byte) :
    Answer.Leads P (execRegisterWrite p loc v s) := by
  unfold execRegisterWrite
  split
  · exact h.stay
  · exact h.write p loc v

theorem CommandsLead.partStop (h : CommandsLead P s) : Answer.Leads P (execPartStop s) := by
  unfold execPartStop
  split
  · next hs => exact h.stopped hs.1 hs.2
  · exact h.stay

theorem CommandsLead.restartRow (h : CommandsLead P s) : Answer.Leads P (execRestart s) := by
  unfold execRestart
  split
  · exact h.restart s.supplyGood
  · exact h.stay

theorem CommandsLead.powerOn (h : CommandsLead P s) : Answer.Leads P (execPowerOn s) := by
  unfold execPowerOn
  dsimp only
  split
  · exact h.restart true
  · exact h.restartHeld

/-- Whatever the command, it leads to the property. -/
theorem CommandsLead.exec (h : CommandsLead P s) (c : Instr) : Answer.Leads P (exec c s) := by
  cases c with
  | minpPulse => exact h.pulse
  | supervisionExpiry => exact h.supervision
  | graceExpiry => exact h.grace
  | feedLineChange i level => exact h.line i level
  | debounceExpiry i => exact h.debounce i
  | supplyLow => exact h.stop false (beginStop s).rstnHigh
  | rstnLow => exact h.stop (beginStop s).supplyGood false
  | partStop => exact h.partStop
  | supplyRestored => exact h.pins true s.rstnHigh
  | rstnHigh => exact h.pins s.supplyGood true
  | restart => exact h.restartRow
  | powerOn => exact h.powerOn
  | resultAbsorption => exact h.absorptionRow (.result ⟨0, ⟨0, 0, 0⟩, .excluded, false, false⟩)
  | stackEntryAbsorption => exact h.absorptionRow (.stack ⟨0, ⟨0, 0, 0⟩, 0, 0⟩)
  | dayEndAbsorption => exact h.absorptionRow (.dayEnd 0 0)
  | yearEndAbsorption => exact h.absorptionRow (.yearEnd 0)
  | gapWalk => exact h.absorptionRow (.gap ⟨⟨0, 0, 0⟩, 0, []⟩)
  | createAccount => exact h.request .createAccount
  | setLimits => exact h.request .setLimits
  | linkSource => exact h.request .linkSource
  | activate => exact h.request .activate
  | amend => exact h.request .amend
  | reassign => exact h.request .reassign
  | retire => exact h.request .retire
  | deleteDraft => exact h.request .deleteDraft
  | certify => exact h.request .certify
  | mark => exact h.request .mark
  | configureChannel => exact h.request .configureChannel
  | startChannel => exact h.request .startChannel
  | stopChannel => exact h.request .stopChannel
  | releaseChannel => exact h.request .releaseChannel
  | readChannel => exact h.request .readChannel
  | setAllowance => exact h.request .setAllowance
  | readStack => exact h.request .readStack
  | setFeedInput => exact h.request .setFeedInput
  | declareAbnormal => exact h.request .declareAbnormal
  | endAbnormal => exact h.request .endAbnormal
  | ackEpisode => exact h.request .ackEpisode
  | readEpisode => exact h.request .readEpisode
  | find => exact h.request .find
  | readAccount => exact h.request .readAccount
  | setCalendar => exact h.request .setCalendar
  | setGrace => exact h.request .setGrace
  | resume => exact h.request .resume
  | go p v | viewPointerWrite p v => exact h.write p _ v
  | registerWrite p loc v => exact h.registerWrite p loc v
  | recordWrite loc v | enableWrite loc v | maskWrite loc v => exact h.write_if .a loc v
  | handOver v => exact h.handOver v
  | trackingAndVectorBaseWrite v | pendingClear v | endOfService v | detailPointerWrite v => exact h.write .a _ v
  | calendarCapture p | viewDataRead p => exact h.read p _
  | vectorRead | detailDataRead => exact h.read .a _
  | readSelector v | writeSelector v | valueByte v => exact h.receive v
  | framingError => exact h.framingError
  | rxdBreak => exact h.rxdBreak
  | breakEnd => exact h.breakEnd
  | answerSent => exact h.answerSent
  | frameStart => exact h.frameStart
  | frameHeader header => exact h.frameHeader header
  | frameEnd => exact h.frameEnd

/-- A step takes a command, a due expiry among them, shifts a byte out or lets a second pass. -/
theorem step_leads (command : ∀ c l, Answer.Leads P (exec c { s with pending := l }))
    (shift : ∀ t, shiftPlainByte s = some t → P t) (second : P { s with now := s.now + 1 }) :
    Answer.Leads P (step s) := by
  unfold step
  split
  · next c l _ => exact command c l
  · unfold idle
    split
    · next c _ => exact command c s.pending
    · split
      · next t ht => exact shift t ht
      · exact second

end

/-! # The laws of the stack input records, of the allowance records and of the ports (03 R48 to R53, R58, 12 R183 to R186)
through every command. -/

/-- Each of the three laws holds of the next state where it held before. -/
structure LawsFollow (s t : State) : Prop where
  inputs : StackInputLaw s → StackInputLaw t
  allowances : AllowanceLaw s → AllowanceLaw t
  ports : PortLaw s → PortLaw t

section
variable {s t u : State}

theorem LawsFollow.trans (h : LawsFollow s t) (h' : LawsFollow t u) : LawsFollow s u :=
  ⟨h'.inputs ∘ h.inputs, h'.allowances ∘ h.allowances, h'.ports ∘ h.ports⟩

theorem StackInputLaw.of_eq (hs : StackInputLaw s) (h : t.inputs = s.inputs) : StackInputLaw t := fun i => by
  rw [State.input, h]
  exact hs i

theorem AllowanceLaw.of_eq (hs : AllowanceLaw s) (h : t.allowances = s.allowances) : AllowanceLaw t := fun i => by
  rw [State.allowance, h]
  exact hs i

theorem PortLaw.of_eq (hs : PortLaw s) (hA : t.portA = s.portA) (hB : t.portB = s.portB) : PortLaw t := by
  unfold PortLaw
  rw [hA, hB]
  exact hs

/-- Where the records and the ports are as they were. -/
theorem LawsFollow.of_same (hi : t.inputs = s.inputs) (ha : t.allowances = s.allowances) (hA : t.portA = s.portA)
    (hB : t.portB = s.portB) : LawsFollow s t :=
  ⟨fun hs => hs.of_eq hi, fun hs => hs.of_eq ha, fun hs => hs.of_eq hA hB⟩

theorem LawsFollow.refl (s : State) : LawsFollow s s := .of_same rfl rfl rfl rfl

theorem LawsFollow.of_inputs (hi : ∀ i, (s.input i).lawful → (t.input i).lawful) (ha : t.allowances = s.allowances)
    (hA : t.portA = s.portA) (hB : t.portB = s.portB) : LawsFollow s t :=
  ⟨fun hs i => hi i (hs i), fun hs => hs.of_eq ha, fun hs => hs.of_eq hA hB⟩

theorem LawsFollow.of_allowances (hi : t.inputs = s.inputs) (ha : ∀ i, (s.allowance i).lawful → (t.allowance i).lawful)
    (hA : t.portA = s.portA) (hB : t.portB = s.portB) : LawsFollow s t :=
  ⟨fun hs => hs.of_eq hi, fun hs i => ha i (hs i), fun hs => hs.of_eq hA hB⟩

theorem LawsFollow.of_ports (hi : t.inputs = s.inputs) (ha : t.allowances = s.allowances) (hp : PortLaw s → PortLaw t) :
    LawsFollow s t :=
  ⟨fun hs => hs.of_eq hi, fun hs => hs.of_eq ha, hp⟩

/-- Only the tables differ. -/
theorem LawsFollow.of_tables (h : TablesOnly s t) : LawsFollow s t := by
  rw [h]
  exact .of_same rfl rfl rfl rfl

end

/-! ## One stack input record (03 R48 to R55) -/

section
variable {r : StackInput}

/-- The marks of a minute are outside the law (03 R56). -/
theorem StackInput.lawful_marks (m : Marks) (f : Option Marks) :
    StackInput.lawful { r with openMarks := m, frozen := f } ↔ r.lawful := Iff.rfl

/-- A stack without its level, off and undeclared (03 R48, R53). -/
theorem StackInput.lawful_off (hoff : r.takenOn = false) (hstate : r.state = .off) (hdecl : r.declaration = none)
    (htimer : r.enable = false → r.timer = none) (h1 : 1 ≤ r.debounce) (h15 : r.debounce ≤ 15) : r.lawful :=
  ⟨by simp [hoff, hstate], by simp [hdecl, hstate], fun h => ⟨hoff, htimer h⟩, h1, h15⟩

theorem StackInput.lawful.withTimer (h : r.lawful) (hen : r.enable = true) (timer : Option Nat) :
    StackInput.lawful { r with timer := timer } := by
  obtain ⟨hstate, hdecl, -, h1, h15⟩ := h
  exact ⟨hstate, hdecl, fun h => absurd (hen.symm.trans h) nofun, h1, h15⟩

/-- Only an enabled stack has a timer that can expire (03 R51). -/
theorem StackInput.lawful.takeLevel (h : r.lawful) {t : Nat} (ht : r.timer = some t) : r.takeLevel.lawful := by
  obtain ⟨hstate, hdecl, hoff, h1, h15⟩ := h
  cases hon : r.takenOn with
  | true =>
    rw [StackInput.takeLevel_off hon]
    exact StackInput.lawful_off rfl rfl rfl (fun _ => rfl) h1 h15
  | false =>
    rw [StackInput.takeLevel_on hon]
    have enabled : r.enable = true := by
      by_contra hen
      have idle := (hoff (Bool.eq_false_iff.mpr hen)).2
      rw [ht] at idle
      cases idle
    have undeclared : r.declaration = none := by
      rw [← Option.not_isSome_iff_eq_none, hdecl, hstate.mpr hon]
      decide
    exact ⟨by simp, by simp [undeclared], fun hen => absurd (enabled.symm.trans hen) nofun, h1, h15⟩

theorem StackInput.lawful.configure (h : r.lawful) {enable : Bool} {d : Nat} (h1 : 1 ≤ d) (h15 : d ≤ 15) (now : Nat)
    (line : Bool) : (r.configure enable d now line).lawful := by
  obtain ⟨hstate, hdecl, hoff, -, -⟩ := h
  rw [StackInput.configure_eq]
  split
  · exact StackInput.lawful_off rfl rfl rfl (fun _ => rfl) h1 h15
  · split
    · exact ⟨hstate, hdecl, nofun, h1, h15⟩
    · next hdis hnew =>
      refine ⟨hstate, hdecl, fun hen => hoff ?_, h1, h15⟩
      have unchanged : enable = false := hen
      by_contra hr
      exact hdis ⟨Bool.eq_true_of_not_eq_false hr, unchanged⟩

theorem StackInput.lawful.declared (h : r.lawful) (hf : r.state = .firing) (stamp : MinuteStamp) :
    StackInput.lawful { r with state := .abnormal, declaration := some stamp } := by
  obtain ⟨hstate, -, hoff, h1, h15⟩ := h
  rw [hf] at hstate
  exact ⟨by simpa using hstate, by simp, hoff, h1, h15⟩

theorem StackInput.lawful.undeclared (h : r.lawful) (ha : r.state = .abnormal) :
    StackInput.lawful { r with state := .firing, declaration := none } := by
  obtain ⟨hstate, -, hoff, h1, h15⟩ := h
  rw [ha] at hstate
  exact ⟨by simpa using hstate, by simp, hoff, h1, h15⟩

theorem StackInput.lawful.restarted (h : r.lawful) (now : Nat) (line : Bool) : (r.restarted now line).lawful := by
  obtain ⟨-, -, -, h1, h15⟩ := h
  exact StackInput.lawful_off rfl rfl rfl (fun hen => by
    have disabled : r.enable = false := hen
    simp [StackInput.restarted, disabled]) h1 h15

end

/-! ## One allowance record (03 R58 to R64) -/

section
variable {r : StackAllowance}

theorem StackAllowance.lawful.reevaluated (h : r.lawful) (hrun : 1 ≤ r.runHh) : r.reevaluated.lawful :=
  ⟨fun _ => hrun, h.2⟩

theorem StackAllowance.lawful.countAbnormal (h : r.lawful) : r.countAbnormal.lawful :=
  ⟨fun _ => show 1 ≤ min 65535 (r.runHh + 1) by omega, Nat.min_le_left .., h.2.2⟩

theorem StackAllowance.lawful.endRun (h : r.lawful) : r.endRun.lawful :=
  ⟨fun hd => absurd rfl hd, Nat.zero_le _, h.2.2⟩

theorem StackAllowance.lawful.moveYear (h : r.lawful) : r.moveYear.lawful := h

theorem StackAllowance.lawful.withAllowances (h : r.lawful) {ep an : Nat} (h1 : 1 ≤ ep) (h96 : ep ≤ 96)
    (h2000 : an ≤ 2000) : (r.withAllowances ep an).lawful :=
  ⟨h.1, h.2.1, h1, h96, h2000⟩

theorem StackAllowance.lawful.withLast (h : r.lawful) (l : Option LastHalfHour) :
    StackAllowance.lawful { r with last := l } := h

end

/-! ## The requests (03 R53 to R55, R63) -/

theorem natArg_range {r : Request} {n lo hi v : Nat} (h : r.natArg n lo hi = some v) : lo ≤ v ∧ v ≤ hi := by
  obtain ⟨x, hx, rfl⟩ := Option.map_eq_some_iff.mp h
  unfold Request.argIn at hx
  split at hx
  · split at hx
    · next hv =>
      cases hx
      omega
    · cases hx
  · cases hx

section
variable {s : State}

theorem allowance_storeAllowances (i j : StackNo) (ep an : Nat) (s : State) :
    (storeAllowances i ep an s).allowance j =
      if i = j then
        if 1 ≤ (s.allowance i).runHh then ((s.allowance i).withAllowances ep an).reevaluated
        else (s.allowance i).withAllowances ep an
      else s.allowance j := by
  unfold storeAllowances
  dsimp only
  split
  · simp only [allowance_evaluateStop, allowance_setAllowance, if_true]
    split <;> rfl
  · rw [allowance_setAllowance]

theorem setAllowance_follows (r : Request) (s : State) : (performSetAllowance r s).Leads (LawsFollow s) := by
  unfold performSetAllowance
  split
  · next i ep an _ hep han =>
    refine .of_allowances (storeAllowances_inputs ..) (fun j hj => ?_) (storeAllowances_portA ..) (storeAllowances_portB ..)
    obtain ⟨h1, h96⟩ := natArg_range hep
    have inRange {r : StackAllowance} (hr : r.lawful) := hr.withAllowances h1 h96 (natArg_range han).2
    rw [allowance_storeAllowances]
    split
    · next hij =>
      subst hij
      split
      · next hrun => exact (inRange hj).reevaluated hrun
      · exact inRange hj
    · exact hj
  · trivial

/-- One stack input record replaced. -/
theorem LawsFollow.setInput {i : StackNo} {r : StackInput} (h : (s.input i).lawful → r.lawful) :
    LawsFollow s (s.setInput i r) :=
  .of_inputs (fun j hj => by
    rw [input_setInput]
    split
    · next hij =>
      subst hij
      exact h hj
    · exact hj) rfl rfl rfl

theorem setFeedInput_follows (r : Request) (s : State) : (performSetFeedInput r s).Leads (LawsFollow s) := by
  unfold performSetFeedInput
  split
  · next hd =>
    obtain ⟨h1, h15⟩ := natArg_range hd
    exact .setInput fun hr => hr.configure h1 h15 _ _
  · trivial

theorem declareAbnormal_follows (r : Request) (s : State) : (performDeclareAbnormal r s).Leads (LawsFollow s) := by
  unfold performDeclareAbnormal
  split
  · trivial
  · dsimp only
    split
    · next hf => exact .setInput fun hr => (StackInput.lawful_marks _ _).mpr (hr.declared hf _)
    · trivial

theorem endAbnormal_follows (r : Request) (s : State) : (performEndAbnormal r s).Leads (LawsFollow s) := by
  unfold performEndAbnormal
  split
  · trivial
  · dsimp only
    split
    · next ha => exact .setInput fun hr => (StackInput.lawful_marks _ _).mpr (hr.undeclared ha)
    · trivial

/-! ## The minute marks (03 R56, R57) -/

/-- Every stack input record is as it was but for its marks. -/
def MarksOnly (s t : State) : Prop :=
  ∀ i, ∃ m f, t.input i = { s.input i with openMarks := m, frozen := f }

theorem MarksOnly.of_eq {t : State} (h : t.inputs = s.inputs) : MarksOnly s t := fun i =>
  ⟨(s.input i).openMarks, (s.input i).frozen, congrArg (·.get i) h⟩

theorem MarksOnly.trans {t u : State} (h : MarksOnly s t) (h' : MarksOnly t u) : MarksOnly s u := fun i => by
  obtain ⟨m, f, hi⟩ := h i
  obtain ⟨m', f', hi'⟩ := h' i
  exact ⟨m', f', by rw [hi', hi]⟩

theorem MarksOnly.lawful {t : State} (h : MarksOnly s t) (i : StackNo) (hi : (s.input i).lawful) :
    (t.input i).lawful := by
  obtain ⟨m, f, e⟩ := h i
  rw [e]
  exact hi

theorem marksOnly_freezeMarks (s : State) : MarksOnly s (freezeMarks s) := fun _ => ⟨_, _, get_tabulate ..⟩

theorem marksOnly_startMarks (s : State) : MarksOnly s (startMarks s) := fun _ => ⟨_, _, get_tabulate ..⟩

theorem marksOnly_collectRecords (m : MinuteStamp) (b : Bool) (s : State) : MarksOnly s (collectRecords m b s) :=
  fun i => ⟨(s.input i).openMarks, none, get_tabulate ..⟩

theorem marksOnly_collectMinute (m : MinuteStamp) (b : Bool) (s : State) : MarksOnly s (collectMinute m b s) := by
  refine (marksOnly_collectRecords m b s).trans (.of_eq ?_)
  unfold collectMinute
  dsimp only
  split
  · split
    · exact closeHalfHour_inputs ..
    · exact closeHalfHour_inputs ..
  · split
    · rfl
    · rfl

theorem marksOnly_collectGrace (s : State) : MarksOnly s (collectGrace s) := by
  cases h : s.clock.inGrace with
  | none =>
    rw [collectGrace_none h]
    exact .of_eq rfl
  | some g =>
    rw [collectGrace_some h]
    exact marksOnly_collectMinute _ _ s

theorem marksOnly_startGrace (b : Bool) (s : State) : MarksOnly s (startGrace b s) := by
  unfold startGrace
  dsimp only
  split
  · exact (marksOnly_freezeMarks s).trans (marksOnly_collectGrace _)
  · exact marksOnly_freezeMarks s

theorem marksOnly_boundary (b : Bool) (s : State) : MarksOnly s (boundary b s) := by
  unfold boundary
  dsimp only
  split
  · exact ((marksOnly_collectGrace s).trans (marksOnly_freezeMarks _)).trans (marksOnly_collectMinute _ _ _)
  · exact (marksOnly_collectGrace s).trans (marksOnly_startGrace b _)

theorem boundary_follows (b : Bool) (s : State) : LawsFollow s (boundary b s) :=
  .of_inputs (marksOnly_boundary b s).lawful (boundary_allowances ..) (boundary_portA ..) (boundary_portB ..)

theorem collectGrace_follows (s : State) : LawsFollow s (collectGrace s) :=
  .of_inputs (marksOnly_collectGrace s).lawful (collectGrace_allowances _) (collectGrace_portA _) (collectGrace_portB _)

theorem setCalendar_follows (r : Request) (s : State) : (performSetCalendar r s).Leads (LawsFollow s) := by
  unfold performSetCalendar
  split
  · trivial
  · exact Reply.leads_check fun _ => Reply.leads_check fun _ =>
      .of_inputs (marksOnly_startMarks s).lawful (stateCalendar_allowances ..) (stateCalendar_portA ..)
        (stateCalendar_portB ..)

theorem resume_follows (r : Request) (s : State) : (performResume r s).Leads (LawsFollow s) := by
  have resumed (p : MinuteStamp) (u : State) : LawsFollow u (resumeAt p u) :=
    .of_inputs (marksOnly_startMarks u).lawful (resumeAt_allowances ..) (resumeAt_portA ..) (resumeAt_portB ..)
  cases h : performResume r s with
  | refused o => trivial
  | read v snap => trivial
  | done v t =>
    obtain ⟨p, S, rfl | rfl⟩ := performResume_done r s v t h
    · exact resumed p s
    · have taken : LawsFollow s (takeUp .engine (appendGap S (p.halfHour.count - S.count) s)) :=
        .of_same rfl rfl rfl rfl
      exact taken.trans (resumed p _)

theorem setGrace_follows (r : Request) (s : State) : (performSetGrace r s).Leads (LawsFollow s) := by
  unfold performSetGrace
  split
  · exact .of_same rfl rfl rfl rfl
  · trivial

/-- Whatever is requested, the laws follow. -/
theorem performRequest_follows (c : RequestCode) (r : Request) (s : State) :
    (performRequest c r s).Leads (LawsFollow s) := by
  have tables (howner : c.owner = .engine) (hne : c ≠ .setAllowance) : (performRequest c r s).Leads (LawsFollow s) :=
    (engineRequest_tablesOnly howner hne r s).mono fun _ => .of_tables
  cases c with
  | setAllowance => exact setAllowance_follows r s
  | setFeedInput => exact setFeedInput_follows r s
  | declareAbnormal => exact declareAbnormal_follows r s
  | endAbnormal => exact endAbnormal_follows r s
  | setGrace => exact setGrace_follows r s
  | setCalendar => exact setCalendar_follows r s
  | resume => exact resume_follows r s
  | _ => exact tables rfl nofun

end

/-! ## The ports (12 R183 to R186) -/

section
variable {s : State}

theorem PortLaw.pointer (hs : PortLaw s) (p : Port) : (s.common p).view.pointer ≤ 511 := by
  obtain ⟨-, -, -, ha, hb⟩ := hs
  cases p
  · exact ha
  · exact hb

/-- A port's own state replaced: the law reads its view pointer only. -/
theorem PortLaw.setCommon (hs : PortLaw s) (p : Port) {c : PortCommon} (hc : c.view.pointer ≤ 511) :
    PortLaw (s.setCommon p c) := by
  obtain ⟨hlow, hmiso, hsend, ha, hb⟩ := hs
  cases p
  · exact ⟨hlow, hmiso, hsend, hc, hb⟩
  · exact ⟨hlow, hmiso, hsend, ha, hc⟩

theorem PortLaw.setArea (hs : PortLaw s) (p : Port) (area : RequestArea) : PortLaw (s.setArea p area) :=
  hs.setCommon p (hs.pointer p)

theorem PortLaw.raiseEvent (hs : PortLaw s) (e : EventSource) (d : Nat) : PortLaw (raiseEvent e d s) := hs

theorem PortLaw.complete (hs : PortLaw s) (p : Port) (b : Byte) (o : ReqOutcome) (l : List Word32) :
    PortLaw (complete p b o l s) :=
  (hs.setCommon p (by exact hs.pointer p)).raiseEvent _ _

theorem PortLaw.submit (hs : PortLaw s) (p : Port) : PortLaw (submit p s) := by
  unfold Machine.submit
  dsimp only
  split
  · exact (hs.setArea p _).complete ..
  · exact (hs.setArea p _).of_eq (takeUp_portA ..) (takeUp_portB ..)

theorem PortLaw.goWrite (hs : PortLaw s) (p : Port) : PortLaw (goWrite p s) := by
  unfold Machine.goWrite
  split
  · exact hs
  · split
    · exact hs.setArea p _
    · exact hs.submit p
    · exact hs.submit p

theorem View.pointer_setPointer {v : View} (h : v.pointer ≤ 511) (high : Byte) : (v.setPointer high).pointer ≤ 511 := by
  unfold View.setPointer
  dsimp only
  split
  · next hp => exact hp
  · exact h

theorem PortLaw.postingWrite (hs : PortLaw s) (loc : Nat) (v : Byte) : PortLaw (postingWrite loc v s) := by
  unfold Machine.postingWrite
  split
  · exact hs
  split
  · exact hs
  split
  · exact hs.of_eq (recordWrite_portA ..) (recordWrite_portB ..)
  split
  · exact hs.of_eq (handOver_portA ..) (handOver_portB ..)
  · exact hs

theorem PortLaw.windowWrite (hs : PortLaw s) (p : Port) (loc : Loc) (v : Byte) : PortLaw (windowWrite p loc v s) := by
  by_cases hp : s.part = .stopped
  · rwa [windowWrite_stopped hp]
  rw [windowWrite_run hp]
  split
  · exact hs
  split
  · exact hs.setCommon p (hs.pointer p)
  split
  · exact hs.goWrite p
  split
  · exact hs.setCommon p (hs.pointer p)
  split
  · exact hs.setCommon p (View.pointer_setPointer (hs.pointer p) v)
  split
  · exact hs
  split
  · exact hs.postingWrite _ v
  · exact hs

theorem PortLaw.windowRead (hs : PortLaw s) (p : Port) (loc : Loc) : PortLaw (windowRead p loc s).2 := by
  unfold Machine.windowRead
  dsimp only
  split
  · exact hs
  split
  · exact hs.setCommon p (hs.pointer p)
  split
  · exact hs.setCommon p (Nat.min_le_left ..)
  split
  · exact hs
  split
  · exact hs
  · exact hs

theorem windowRead_csnLow (p : Port) (loc : Loc) (s : State) :
    (windowRead p loc s).2.portA.csnLow = s.portA.csnLow := by
  have kept (c : PortCommon) : (s.setCommon p c).portA.csnLow = s.portA.csnLow := by cases p <;> rfl
  unfold windowRead
  dsimp only
  split
  · rfl
  split
  · exact kept _
  split
  · exact kept _
  split
  · rfl
  split
  · rfl
  · rfl

/-- A frame that stands open keeps CSN low. -/
theorem PortLaw.csnLow (hs : PortLaw s) {f : Frame} (h : s.portA.frame = some f) : s.portA.csnLow = true :=
  hs.1 (by rw [h]; rfl)

/-- An open frame with a byte on MISO. -/
theorem PortLaw.withFrame (hs : PortLaw s) (hlow : s.portA.csnLow = true) (f : Frame) (b : Byte) :
    PortLaw { s with portA := { s.portA with frame := some f, miso := some b } } :=
  ⟨fun _ => hlow, Iff.rfl, hs.2.2⟩

/-- The frame moves on; MISO stays driven. -/
theorem PortLaw.moveFrame (hs : PortLaw s) (read : Bool) {loc : Loc} {f : Frame} (h : s.portA.frame = some f) :
    PortLaw (moveFrame read loc s) := by
  obtain ⟨hlow, hmiso, hrest⟩ := hs
  rw [h] at hlow hmiso
  exact ⟨hlow, hmiso, hrest⟩

theorem PortLaw.pointAt (hs : PortLaw s) (phase : Phase) (loc : Loc) : PortLaw (pointAt phase loc s) := hs

theorem PortLaw.enqueueAnswer (hs : PortLaw s) (v : Byte) : PortLaw (enqueueAnswer v s) := by
  obtain ⟨hlow, hmiso, -, hpointers⟩ := hs
  unfold Machine.enqueueAnswer
  split
  · exact ⟨hlow, hmiso, nofun, hpointers⟩
  · next answer h => exact ⟨hlow, hmiso, fun hnone => (by cases h.symm.trans hnone), hpointers⟩

theorem PortLaw.receiveByte (hs : PortLaw s) (v : Byte) : PortLaw (receiveByte v s) := by
  unfold Machine.receiveByte
  split
  · exact hs
  · split
    · exact (hs.pointAt .selector s.portB.pointer).windowWrite ..
    · split
      · exact ((hs.pointAt .selector _).windowRead .b _).enqueueAnswer _
      · exact hs.pointAt .value _

end

/-! ## Every command -/

section

theorem receiveByte_follows (v : Byte) (s : State) : LawsFollow s (receiveByte v s) :=
  .of_ports (receiveByte_inputs ..) (receiveByte_allowances ..) (·.receiveByte v)

/-- What a write of a location by a port leads to. -/
theorem portWrite_follows (p : Port) (loc : Loc) (v : Byte) (s : State) :
    Answer.Leads (LawsFollow s) (portWrite p loc v s) := by
  cases p with
  | a =>
    show Answer.Leads _ (frameWrite loc v s)
    unfold frameWrite
    split
    · next hframe =>
      rw [moveFrame_windowWrite]
      exact .of_ports (windowWrite_inputs ..) (windowWrite_allowances ..)
        fun hs => (hs.moveFrame false hframe).windowWrite .a loc v
    · exact .refl s
  | b =>
    show Answer.Leads _ (valueWrite loc v s)
    unfold valueWrite
    split
    · exact receiveByte_follows v s
    · exact .refl s

/-- What a read of a location by a port leads to. -/
theorem portRead_follows (p : Port) (loc : Loc) (s : State) : Answer.Leads (LawsFollow s) (portRead p loc s) := by
  cases p with
  | a =>
    show Answer.Leads _ (frameRead loc s)
    unfold frameRead
    split
    · next hreach =>
      refine .of_ports (windowRead_inputs .a loc s) (windowRead_allowances .a loc s) fun hs => ?_
      have open_ : ∃ f, s.portA.frame = some f := by
        unfold frameReaches at hreach
        split at hreach
        · exact ⟨_, by assumption⟩
        all_goals cases hreach
      obtain ⟨f, hf⟩ := open_
      exact (hs.windowRead .a loc).withFrame ((windowRead_csnLow ..).trans (hs.csnLow hf)) _ _
    · exact .refl s
  | b =>
    show Answer.Leads _ (selectorRead loc s)
    unfold selectorRead
    split
    · exact receiveByte_follows _ s
    · exact .refl s

theorem shiftPlainByte_follows {s t : State} (h : shiftPlainByte s = some t) : LawsFollow s t := by
  unfold shiftPlainByte at h
  split at h
  · next loc hf =>
    split at h
    · cases h
    · cases h
      exact .of_ports rfl rfl fun hs => hs.withFrame (hs.csnLow hf) _ _
  all_goals cases h

theorem answered_follows (o : Owner) (p : Port) (c : RequestCode) (r : Request) (s : State) :
    LawsFollow s (finish o (answer p r.code (performRequest c r s) s)) := by
  have leads := performRequest_follows c r s
  have completed (b : Byte) (out : ReqOutcome) (l : List Word32) (t : State) : LawsFollow t (complete p b out l t) :=
    .of_ports (complete_inputs ..) (complete_allowances ..) (·.complete p b out l)
  have answered : LawsFollow s (answer p r.code (performRequest c r s) s) := by
    cases h : performRequest c r s with
    | refused out => exact completed ..
    | done v t =>
      rw [h] at leads
      exact leads.trans (completed ..)
    | read v snap =>
      have viewed : LawsFollow s (setView p snap s) :=
        .of_ports (setView_inputs ..) (setView_allowances ..) (·.setCommon p (Nat.zero_le _))
      exact viewed.trans (completed ..)
  exact answered.trans (.of_same (finish_inputs ..) (finish_allowances ..) (finish_portA ..) (finish_portB ..))

theorem completeAll_follows (s : State) : LawsFollow s (completeAll s) :=
  completeAll_induct (fun t o p c r ht _ => ht.trans (answered_follows o p c r t)) (.refl s)

theorem completeEarlier_follows (o : Owner) (s : State) : LawsFollow s (completeEarlier o s) :=
  completeEarlier_induct (fun t q p c r ht _ => ht.trans (answered_follows q p c r t)) (.refl s) o

theorem runRequest_follows (c : RequestCode) (s : State) :
    Answer.Leads (LawsFollow s) (runRequest c (performRequest c) s) := by
  unfold runRequest
  split
  · exact .refl s
  · exact (completeEarlier_follows ..).trans (answered_follows ..)

/-! ### Absorptions -/

theorem absorbStack_follows (e : StackEntry) (s : State) : LawsFollow s (absorbStack e s) := by
  refine .of_allowances (absorbStack_inputs ..) (fun i hi => ?_) (absorbStack_portA ..) (absorbStack_portB ..)
  by_cases habn : 1 ≤ e.abnormal
  · rw [allowance_absorbStack_abnormal habn]
    split
    · next hi' =>
      subst hi'
      exact (hi.countAbnormal.reevaluated (show 1 ≤ min 65535 (_ + 1) by omega)).withLast _
    · exact hi
  · rw [allowance_absorbStack_normal (by omega)]
    split
    · next hi' =>
      subst hi'
      exact hi.endRun.withLast _
    · exact hi

theorem allowance_closeYear (Y : Nat) (s : State) (i : StackNo) :
    (closeYear Y s).allowance i = (s.allowance i).moveYear := by
  have closed : ∀ t : State, (forEach 128 (closeYearOf Y) t).allowances = t.allowances := fun t =>
    (congrArg State.allowances (closeYears_frame Y t) :)
  have moved : ∀ t : State, (moveYear t).allowance i = (t.allowance i).moveYear := fun t => get_tabulate ..
  unfold closeYear
  dsimp only
  rw [allowance_raiseEvent_frame, moved, State.allowance, closed, endEpisodes_allowances]
  rfl

theorem closeYear_follows (Y : Nat) (s : State) : LawsFollow s (closeYear Y s) :=
  .of_allowances (closeYear_inputs ..) (fun i hi => by rw [allowance_closeYear]; exact hi.moveYear) (closeYear_portA ..)
    (closeYear_portB ..)

theorem closeDay_follows (Y D : Nat) (s : State) : LawsFollow s (closeDay Y D s) :=
  .of_same (closeDay_inputs ..) (closeDay_allowances ..) (closeDay_portA ..) (closeDay_portB ..)

theorem walkHalfHour_follows (charged : List SlotNo) (x : HalfHourStamp) (s : State) :
    LawsFollow s (walkHalfHour charged x s) := by
  have charges : LawsFollow s (charged.foldl (fun t i => chargeGap i t) s) := by
    rw [chargeGaps_frame]
    exact .of_same rfl rfl rfl rfl
  unfold walkHalfHour
  dsimp only
  generalize charged.foldl (fun t i => chargeGap i t) s = t at charges ⊢
  have dayClosed : LawsFollow t (if x.hh = 47 then closeDay x.year x.day t else t) := by
    split
    · exact closeDay_follows ..
    · exact .refl t
  split
  · exact (charges.trans dayClosed).trans (closeYear_follows ..)
  · exact charges.trans dayClosed

theorem walkGap_follows (charged : List SlotNo) (n : Nat) (x : HalfHourStamp) (s : State) :
    LawsFollow s (walkGap charged n x s) := by
  induction n generalizing x s with
  | zero => exact .refl s
  | succ n ih => exact (walkHalfHour_follows charged x s).trans (ih _ _)

theorem absorbing_follows (e : Entry) (s : State) : LawsFollow s (absorbing e s) := by
  cases e with
  | result e =>
    exact .of_same (absorbResult_inputs ..) (absorbResult_allowances ..) (absorbResult_portA ..) (absorbResult_portB ..)
  | stack e => exact absorbStack_follows e s
  | dayEnd Y D => exact closeDay_follows Y D s
  | yearEnd Y => exact closeYear_follows Y s
  | gap g => exact walkGap_follows g.charged g.count g.start s

theorem absorbHead_follows (e : Entry) (s : State) : LawsFollow s (absorbHead (absorbing e) s) :=
  ((completeEarlier_follows .engine s).trans (absorbing_follows e _)).trans
    (.of_same (removeHead_inputs _) (removeHead_allowances _) (removeHead_portA _) (removeHead_portB _))

/-! ### Events, the stop and the restart -/

theorem takePulse_follows (s : State) : LawsFollow s (takePulse s) := by
  unfold takePulse
  split
  · exact .refl s
  · split
    · exact .refl s
    · exact boundary_follows false s
    · exact .of_same rfl rfl rfl rfl
    · have external : LawsFollow s (setSource .external s) := .of_same rfl rfl rfl rfl
      exact external.trans (boundary_follows false _)

theorem expireSupervision_follows (s : State) : LawsFollow s (expireSupervision s) := by
  unfold expireSupervision
  split
  · next e _ _ =>
    have lost : LawsFollow s (loseClock (advanceTo e s)) :=
      .of_same (loseClock_inputs _) (loseClock_allowances _) (loseClock_portA _) (loseClock_portB _)
    exact lost.trans (boundary_follows true _)
  · exact .refl s

theorem expireGrace_follows (s : State) : LawsFollow s (expireGrace s) := by
  unfold expireGrace
  split
  · next e _ _ =>
    have advanced : LawsFollow s (advanceTo e s) := .of_same rfl rfl rfl rfl
    exact advanced.trans (collectGrace_follows _)
  · exact .refl s

theorem changeLine_follows (i : StackNo) (level : Bool) (s : State) : LawsFollow s (changeLine i level s) := by
  by_cases h : s.feedLine i = level
  · rw [changeLine_same h]
    exact .refl s
  by_cases hen : (s.input i).enable = true ∧ s.part ≠ .stopped
  · rw [changeLine_enabled h hen.1 hen.2]
    have lined : LawsFollow s { s with feedLines := put s.feedLines i level } := .of_same rfl rfl rfl rfl
    exact lined.trans (.setInput fun hr => hr.withTimer hen.1 _)
  · rw [changeLine_unwatched h hen]
    exact .of_same rfl rfl rfl rfl

theorem expireDebounce_follows (i : StackNo) (s : State) : LawsFollow s (expireDebounce i s) := by
  cases ht : (s.input i).timer with
  | none =>
    rw [expireDebounce_idle ht]
    exact .refl s
  | some e =>
    by_cases hp : s.part = .stopped
    · rw [expireDebounce_stopped i hp]
      exact .refl s
    · rw [expireDebounce_running ht hp]
      have taken : LawsFollow s (s.setInput i (s.input i).takeLevel) := .setInput fun hr => hr.takeLevel ht
      exact taken.trans (.of_same rfl rfl rfl rfl)

theorem stopBlocks_follows (s : State) : LawsFollow s (stopBlocks s) := by
  have stopped (t : State) : LawsFollow t (takeUp .engine (stopClock t)) := .of_same rfl rfl rfl rfl
  unfold stopBlocks
  split
  · exact (collectGrace_follows s).trans (stopped _)
  · exact stopped s

theorem beginStop_follows (s : State) : LawsFollow s (beginStop s) := by
  unfold beginStop
  split
  · have stopping : LawsFollow s { s with part := .stopping } := .of_same rfl rfl rfl rfl
    exact (stopping.trans (completeAll_follows _)).trans (stopBlocks_follows _)
  · exact .refl s

/-- The ports of a restarted part: no frame, nothing on MISO or TXD, the view pointers at 0 (12 R189). -/
theorem volatileReset_follows (s : State) : LawsFollow s (volatileReset s) where
  inputs := fun hs i => by
    have restarted : (volatileReset s).input i = (s.input i).restarted s.now (s.feedLine i) := get_tabulate ..
    rw [restarted]
    exact (hs i).restarted ..
  allowances := fun hs => hs.of_eq rfl
  ports := fun _ => ⟨nofun, Iff.rfl, fun _ => rfl, Nat.zero_le _, Nat.zero_le _⟩

/-! ### The rows of the ports -/

theorem execFrameStart_follows (s : State) : Answer.Leads (LawsFollow s) (execFrameStart s) := by
  unfold execFrameStart
  split
  · exact .refl s
  · exact .of_ports rfl rfl fun hs => ⟨fun _ => rfl, Iff.rfl, hs.2.2⟩

theorem execFrameHeader_follows (header : Byte) (s : State) :
    Answer.Leads (LawsFollow s) (execFrameHeader header s) := by
  unfold execFrameHeader
  split
  · next hf =>
    refine .of_ports rfl rfl fun hs => ?_
    have low := hs.csnLow hf
    obtain ⟨-, hmiso, hrest⟩ := hs
    exact ⟨fun _ => low, hmiso.trans (by rw [hf]; rfl), hrest⟩
  · exact .refl s

theorem execFrameEnd_follows (s : State) : Answer.Leads (LawsFollow s) (execFrameEnd s) :=
  .of_ports rfl rfl fun hs => ⟨nofun, Iff.rfl, hs.2.2⟩

theorem execRxdBreak_follows (s : State) : Answer.Leads (LawsFollow s) (execRxdBreak s) :=
  .of_ports rfl rfl fun ⟨hlow, hmiso, hsend, ha, _⟩ => ⟨hlow, hmiso, hsend, ha, Nat.zero_le _⟩

/-- The next answer follows onto TXD; with none left nothing waits. -/
theorem execAnswerSent_follows (s : State) : Answer.Leads (LawsFollow s) (execAnswerSent s) := by
  unfold execAnswerSent
  split
  · exact .refl s
  · refine .of_ports rfl rfl fun ⟨hlow, hmiso, _, hpointers⟩ => ⟨hlow, hmiso, fun hnone => ?_, hpointers⟩
    have empty : s.portB.answers = [] := List.head?_eq_none_iff.mp hnone
    show s.portB.answers.tail = []
    rw [empty]
    rfl

/-- Whatever the command, the three laws follow. -/
theorem commands_follow (s : State) : CommandsLead (LawsFollow s) s where
  stay := .refl s
  request := fun c => runRequest_follows c s
  absorption := fun e _ => absorbHead_follows e s
  pulse := (completeAll_follows s).trans (takePulse_follows _)
  supervision := (completeAll_follows s).trans (expireSupervision_follows _)
  grace := (completeAll_follows s).trans (expireGrace_follows _)
  line := fun i level => (completeAll_follows s).trans (changeLine_follows i level _)
  debounce := fun i => (completeAll_follows s).trans (expireDebounce_follows i _)
  stop := fun _ _ => (beginStop_follows s).trans (.of_same rfl rfl rfl rfl)
  pins := fun _ _ => .of_same rfl rfl rfl rfl
  stopped := fun _ _ => .of_same rfl rfl rfl rfl
  restart := fun _ => (volatileReset_follows s).trans (.of_same rfl rfl rfl rfl)
  restartHeld := (volatileReset_follows s).trans (.of_same rfl rfl rfl rfl)
  write := fun p loc v => portWrite_follows p loc v s
  handOver := fun v => (portWrite_follows .a 0x6C v _).mono fun _ => (completeAll_follows s).trans
  read := fun p loc => portRead_follows p loc s
  receive := fun v => receiveByte_follows v s
  frameStart := execFrameStart_follows s
  frameHeader := fun header => execFrameHeader_follows header s
  frameEnd := execFrameEnd_follows s
  framingError := .of_ports rfl rfl id
  rxdBreak := execRxdBreak_follows s
  breakEnd := .of_ports rfl rfl id
  answerSent := execAnswerSent_follows s

theorem step_follows (s : State) : Answer.Leads (LawsFollow s) (step s) := by
  refine step_leads (fun c l => ?_) (fun _ => shiftPlainByte_follows) (.of_same rfl rfl rfl rfl)
  have queued : LawsFollow s { s with pending := l } := .of_same rfl rfl rfl rfl
  exact ((commands_follow { s with pending := l }).exec c).mono fun _ => queued.trans

end

/-! # The law of what the owners have in hand (07 R114, R116, R118, 10 R170, R173): taking up, completing, and every
command. -/

/-! ## Taking up (07 R116, 10 R170) -/

section
variable {s t : State} {o : Owner} {p : Port}

theorem inHand_engine_iff : inHand s .engine = some p ↔ s.inFlight = some (.request p) := by
  unfold inHand
  rcases s.inFlight with _ | _ | q <;> simp

theorem inHand_engine_none : inHand s .engine = none ↔ s.inFlight = none ∨ s.inFlight = some .entry := by
  unfold inHand
  rcases s.inFlight with _ | _ | q <;> simp

/-- What an owner has in hand is read from three fields. -/
theorem inHand_congr (hf : t.inFlight = s.inFlight) (hm : t.monitorHand = s.monitorHand) (hc : t.clockHand = s.clockHand)
    (o : Owner) : inHand t o = inHand s o := by
  cases o <;> simp [inHand, hf, hm, hc]

theorem preferredPort_waits (h : preferredPort s o = some p) : (waitingAt s o p).isSome := by
  unfold preferredPort at h
  split at h
  · next hb => cases h; exact hb
  · split at h
    · next ha => cases h; exact ha
    · cases h

theorem preferredPort_isSome (h : (waitingAt s o p).isSome) : (preferredPort s o).isSome := by
  unfold preferredPort
  split
  · rfl
  · next hb =>
    cases p with
    | a => rw [if_pos h]; rfl
    | b => exact absurd h hb

/-- The claim of the queue head: the first of the engine's two candidates. -/
def headClaim (s : State) : Option Claim := if s.queue.isEmpty then none else some .entry

/-- The claim of the preferred request: the second of the engine's two candidates. -/
def requestClaim (s : State) : Option Claim := (preferredPort s .engine).map .request

theorem headClaim_none : headClaim s = none ↔ s.queue = [] := by
  simp [headClaim]

/-- The running engine takes the candidates in the one order or in the other. -/
theorem chosenClaim_running (hp : s.part = .running) :
    chosenClaim s = (headClaim s).or (requestClaim s) ∨ chosenClaim s = (requestClaim s).or (headClaim s) := by
  cases last : s.lastClaim <;> simp only [chosenClaim, hp, last]
  case entry => exact .inr rfl
  case request => exact .inl rfl
  case none => exact .inl rfl

theorem chosenClaim_stopping (hp : s.part = .stopping) : chosenClaim s = headClaim s := by
  simp only [chosenClaim, hp]
  rfl

theorem chosenClaim_stopped (hp : s.part = .stopped) : chosenClaim s = none := by
  simp only [chosenClaim, hp]

/-- What the engine chooses is one of its candidates, a request only in the running part. -/
theorem chosenClaim_some {c : Claim} (h : chosenClaim s = some c) :
    headClaim s = some c ∨ s.part = .running ∧ requestClaim s = some c := by
  cases hp : s.part with
  | stopped => rw [chosenClaim_stopped hp] at h; cases h
  | stopping => exact .inl ((chosenClaim_stopping hp).symm.trans h)
  | running =>
    rcases chosenClaim_running hp with order | order
    · exact (Option.or_eq_some_iff.mp (order.symm.trans h)).imp id fun hr => ⟨rfl, hr.2⟩
    · exact (Option.or_eq_some_iff.mp (order.symm.trans h)).symm.imp And.right fun hr => ⟨rfl, hr⟩

theorem chosenClaim_request (h : chosenClaim s = some (.request p)) :
    s.part = .running ∧ preferredPort s .engine = some p := by
  rcases chosenClaim_some h with head | ⟨hrun, request⟩
  · unfold headClaim at head
    split at head <;> cases head
  · obtain ⟨q, hq, heq⟩ := Option.map_eq_some_iff.mp request
    cases heq
    exact ⟨hrun, hq⟩

theorem chosenClaim_entry (h : chosenClaim s = some .entry) : s.queue ≠ [] := by
  rcases chosenClaim_some h with head | ⟨-, request⟩
  · intro hq
    rw [headClaim_none.mpr hq] at head
    cases head
  · obtain ⟨q, -, heq⟩ := Option.map_eq_some_iff.mp request
    cases heq

/-- An engine that chooses nothing has nothing to choose from. -/
theorem chosenClaim_none (h : chosenClaim s = none) (hp : s.part ≠ .stopped) :
    s.queue = [] ∧ (s.part = .running → preferredPort s .engine = none) := by
  cases part : s.part with
  | stopped => exact absurd part hp
  | stopping => exact ⟨headClaim_none.mp ((chosenClaim_stopping part).symm.trans h), nofun⟩
  | running =>
    have both : headClaim s = none ∧ requestClaim s = none := by
      rcases chosenClaim_running part with order | order
      · exact Option.or_eq_none_iff.mp (order.symm.trans h)
      · exact (Option.or_eq_none_iff.mp (order.symm.trans h)).symm
    exact ⟨headClaim_none.mp both.1, fun _ => Option.map_eq_none_iff.mp both.2⟩

/-- An owner has something in hand; the engine a queue head or a request. -/
def Occupied (s : State) : Owner → Prop
  | .engine => s.inFlight ≠ none
  | .monitor => s.monitorHand ≠ none
  | .clock => s.clockHand ≠ none

/-- An occupied owner without a request in hand is the engine with the queue head. -/
theorem Occupied.entry (h : Occupied s o) (hnone : inHand s o = none) : o = .engine ∧ s.inFlight = some .entry := by
  cases o with
  | engine => exact ⟨rfl, (inHand_engine_none.mp hnone).resolve_left h⟩
  | monitor => exact absurd hnone h
  | clock => exact absurd hnone h

theorem inHand_of_not_occupied (h : ¬ Occupied s o) : inHand s o = none := by
  cases o with
  | engine => exact inHand_engine_none.mpr (.inl (not_not.mp h))
  | monitor => exact not_not.mp h
  | clock => exact not_not.mp h

/-- An occupied owner takes nothing up. -/
theorem takeUp_occupied (h : Occupied s o) : takeUp o s = s := by
  cases o with
  | engine =>
    obtain ⟨c, hc⟩ := Option.ne_none_iff_exists'.mp h
    have claim : nextClaim s = s.inFlight := by rw [nextClaim, hc]; rfl
    have order : orderAfter .engine s = s.handOrder := by
      refine if_neg fun ⟨hnone, hnext⟩ => ?_
      rw [nextPort, claim] at hnext
      cases c with
      | entry => rw [hc] at hnext; cases hnext
      | request q => rw [inHand_engine_iff.mpr hc] at hnone; cases hnone
    simp only [takeUp, takeHand, claim, order]
  | monitor =>
    obtain ⟨q, hq⟩ := Option.ne_none_iff_exists'.mp h
    have port : nextPort s .monitor = s.monitorHand := by rw [nextPort, hq]; rfl
    have order : orderAfter .monitor s = s.handOrder := if_neg fun ⟨hnone, _⟩ => h hnone
    simp only [takeUp, takeHand, port, order]
  | clock =>
    obtain ⟨q, hq⟩ := Option.ne_none_iff_exists'.mp h
    have port : nextPort s .clock = s.clockHand := by rw [nextPort, hq]; rfl
    have order : orderAfter .clock s = s.handOrder := if_neg fun ⟨hnone, _⟩ => h hnone
    simp only [takeUp, takeHand, port, order]

theorem inHand_takeUp_self (o : Owner) (s : State) : inHand (takeUp o s) o = nextPort s o := by cases o <;> rfl

theorem inHand_takeUp_ne {q : Owner} (h : q ≠ o) (s : State) : inHand (takeUp o s) q = inHand s q := by
  cases o <;> cases q <;> trivial

theorem takeUp_inFlight_ne (h : o ≠ .engine) (s : State) : (takeUp o s).inFlight = s.inFlight := by
  cases o with
  | engine => exact absurd rfl h
  | monitor => rfl
  | clock => rfl

/-- What an owner takes up waits for it in the running part. -/
theorem nextPort_waits (h : ¬ Occupied s o) (hp : nextPort s o = some p) :
    s.part = .running ∧ (waitingAt s o p).isSome := by
  have chosen {q : Owner} (hq : chosenPort s q = some p) : s.part = .running ∧ (waitingAt s q p).isSome := by
    unfold chosenPort at hq
    split at hq
    · next hrun => exact ⟨hrun, preferredPort_waits hq⟩
    · cases hq
  cases o with
  | engine =>
    have empty : s.inFlight = none := not_not.mp h
    have claim : chosenClaim s = some (.request p) := by
      unfold nextPort nextClaim at hp
      rw [empty, Option.none_or] at hp
      cases hc : chosenClaim s with
      | none => rw [hc] at hp; cases hp
      | some c =>
        cases c with
        | entry => rw [hc] at hp; cases hp
        | request q => rw [hc] at hp; exact congrArg _ (congrArg _ (Option.some.inj hp))
    obtain ⟨hrun, hpref⟩ := chosenClaim_request claim
    exact ⟨hrun, preferredPort_waits hpref⟩
  | monitor =>
    have empty : s.monitorHand = none := not_not.mp h
    rw [nextPort, empty, Option.none_or] at hp
    exact chosen hp
  | clock =>
    have empty : s.clockHand = none := not_not.mp h
    rw [nextPort, empty, Option.none_or] at hp
    exact chosen hp

/-- An owner of the running part that takes no request up has none waiting, or is the engine with the queue head. -/
theorem nextPort_none (hrun : s.part = .running) (h : ¬ Occupied s o) (hn : nextPort s o = none)
    (hw : (waitingAt s o p).isSome) : o = .engine ∧ chosenClaim s = some .entry := by
  obtain ⟨q, hq⟩ := Option.isSome_iff_exists.mp (preferredPort_isSome hw)
  cases o with
  | engine =>
    have empty : s.inFlight = none := not_not.mp h
    refine ⟨rfl, ?_⟩
    unfold nextPort nextClaim at hn
    rw [empty, Option.none_or] at hn
    cases hc : chosenClaim s with
    | none =>
      rw [(chosenClaim_none hc (by rw [hrun]; decide)).2 hrun] at hq
      cases hq
    | some c =>
      cases c with
      | entry => rfl
      | request q => rw [hc] at hn; cases hn
  | monitor =>
    have empty : s.monitorHand = none := not_not.mp h
    rw [nextPort, empty, Option.none_or, chosenPort, if_pos hrun, hq] at hn
    cases hn
  | clock =>
    have empty : s.clockHand = none := not_not.mp h
    rw [nextPort, empty, Option.none_or, chosenPort, if_pos hrun, hq] at hn
    cases hn

end

/-! ## The law within a command -/

/-- The law of what the owners have in hand as it stands within a command: where the stop is beginning, requests are in hand
still, and the owner x, where there is one, has yet to take up what waits for it. -/
structure Hands (beginning : Prop) (x : Option Owner) (s : State) : Prop where
  waits : ∀ o p, inHand s o = some p → (waitingAt s o p).isSome
  live : ∀ o p, inHand s o = some p → s.part = .running ∨ beginning ∧ s.part = .stopping
  head : s.inFlight = some .entry → s.queue ≠ []
  taken : s.part = .running → ∀ o p, some o ≠ x → inHand s o = none → (waitingAt s o p).isSome →
    o = .engine ∧ s.inFlight = some .entry
  idle : some .engine ≠ x → s.inFlight = none → s.queue = []
  stopped : s.part = .stopped → s.queue = []
  order : ∀ o, o ∈ s.handOrder ↔ (inHand s o).isSome
  once : s.handOrder.Nodup

/-- Between commands the law stands whole. -/
theorem handLaw_iff {s : State} : HandLaw s ↔ Hands False none s := by
  constructor
  · rintro ⟨hwaits, hhead, htaken, hidle, hstopped, horder, honce⟩
    exact ⟨fun o p h => (hwaits o p h).1, fun o p h => .inl (hwaits o p h).2, hhead, fun hrun o p _ => htaken hrun o p,
      fun _ => hidle, hstopped, horder, honce⟩
  · intro hs
    exact ⟨fun o p h => ⟨hs.waits o p h, (hs.live o p h).resolve_right fun hb => hb.1⟩, hs.head,
      fun hr o p => hs.taken hr o p nofun, hs.idle nofun, hs.stopped, hs.order, hs.once⟩

/-- What the law reads is as it was. -/
structure SameHands (s t : State) : Prop where
  waiting : ∀ o p, waitingAt t o p = waitingAt s o p
  part : t.part = s.part
  queue : t.queue = s.queue
  inFlight : t.inFlight = s.inFlight
  monitorHand : t.monitorHand = s.monitorHand
  clockHand : t.clockHand = s.clockHand
  handOrder : t.handOrder = s.handOrder

section
variable {b : Prop} {s t u : State} {x : Option Owner} {o : Owner} {p : Port}

theorem SameHands.refl (s : State) : SameHands s s := ⟨fun _ _ => rfl, rfl, rfl, rfl, rfl, rfl, rfl⟩

/-- Where the ports and what the owners have in hand are as they were. -/
theorem SameHands.of_fields (hA : t.portA = s.portA) (hB : t.portB = s.portB) (hp : t.part = s.part)
    (hq : t.queue = s.queue) (hf : t.inFlight = s.inFlight) (hm : t.monitorHand = s.monitorHand)
    (hc : t.clockHand = s.clockHand) (ho : t.handOrder = s.handOrder) : SameHands s t :=
  ⟨fun o p => by cases p <;> simp only [waitingAt, State.common, hA, hB], hp, hq, hf, hm, hc, ho⟩

theorem SameHands.trans (h : SameHands s t) (h' : SameHands t u) : SameHands s u :=
  ⟨fun o p => (h'.waiting o p).trans (h.waiting o p), h'.part.trans h.part, h'.queue.trans h.queue,
    h'.inFlight.trans h.inFlight, h'.monitorHand.trans h.monitorHand, h'.clockHand.trans h.clockHand,
    h'.handOrder.trans h.handOrder⟩

theorem SameHands.inHand (h : SameHands s t) (o : Owner) : inHand t o = inHand s o :=
  inHand_congr h.inFlight h.monitorHand h.clockHand o

theorem Hands.same (hs : Hands b x s) (h : SameHands s t) : Hands b x t where
  waits := fun o p hp => by
    rw [h.waiting]
    exact hs.waits o p (h.inHand o ▸ hp)
  live := fun o p hp => by
    rw [h.part]
    exact hs.live o p (h.inHand o ▸ hp)
  head := fun hf => by
    rw [h.queue]
    exact hs.head (h.inFlight ▸ hf)
  taken := fun hrun o p hx hn hw => by
    rw [h.inFlight]
    exact hs.taken (h.part ▸ hrun) o p hx (h.inHand o ▸ hn) (h.waiting o p ▸ hw)
  idle := fun hx hf => by
    rw [h.queue]
    exact hs.idle hx (h.inFlight ▸ hf)
  stopped := fun hp => by
    rw [h.queue]
    exact hs.stopped (h.part ▸ hp)
  order := fun o => by
    rw [h.handOrder, h.inHand]
    exact hs.order o
  once := by
    rw [h.handOrder]
    exact hs.once

theorem Hands.not_stopped (hs : Hands b x s) (h : inHand s o = some p) : s.part ≠ .stopped := by
  rcases hs.live o p h with hrun | ⟨-, hstop⟩
  · rw [hrun]; decide
  · rw [hstop]; decide

/-- With nothing in hand it does not matter whether the stop is beginning. -/
theorem Hands.of_none (hs : Hands b x s) (hnone : NoneInHand s) (b' : Prop) : Hands b' x s :=
  { hs with live := fun o p hp => by rw [hnone o] at hp; cases hp }

/-- Behind the taking up of the owner that had yet to take something up, the law stands whole. -/
theorem Hands.takenUp (hs : Hands b (some o) s) : Hands b none (takeUp o s) := by
  by_cases hocc : Occupied s o
  · rw [takeUp_occupied hocc]
    exact { hs with
      taken := fun hrun q p _ hn hw => by
        by_cases hq : q = o
        · subst hq
          exact hocc.entry hn
        · exact hs.taken hrun q p (fun h => hq (Option.some.inj h)) hn hw
      idle := fun _ hf => hs.idle (fun h => by
        cases h
        exact hocc hf) hf }
  have free : inHand s o = none := inHand_of_not_occupied hocc
  have listed : o ∉ s.handOrder := fun h => by
    have := (hs.order o).mp h
    rw [free] at this
    cases this
  have order : (takeUp o s).handOrder = if (nextPort s o).isSome then s.handOrder ++ [o] else s.handOrder := by
    show orderAfter o s = _
    simp only [orderAfter, free, true_and]
  have waiting (q : Owner) (p : Port) : waitingAt (takeUp o s) q p = waitingAt s q p := by
    simp only [waitingAt, common_takeUp]
  have claim : o = .engine → (takeUp o s).inFlight = chosenClaim s := by
    rintro rfl
    rw [takeUp_engine_inFlight, nextClaim, not_not.mp hocc, Option.none_or]
  constructor
  case waits =>
    intro q p hp
    rw [waiting]
    by_cases hq : q = o
    · subst hq
      rw [inHand_takeUp_self] at hp
      exact (nextPort_waits hocc hp).2
    · rw [inHand_takeUp_ne hq] at hp
      exact hs.waits q p hp
  case live =>
    intro q p hp
    rw [takeUp_part]
    by_cases hq : q = o
    · subst hq
      rw [inHand_takeUp_self] at hp
      exact .inl (nextPort_waits hocc hp).1
    · rw [inHand_takeUp_ne hq] at hp
      exact hs.live q p hp
  case head =>
    intro hf
    rw [takeUp_queue]
    by_cases ho : o = .engine
    · exact chosenClaim_entry ((claim ho).symm.trans hf)
    · exact hs.head ((takeUp_inFlight_ne ho s).symm.trans hf)
  case taken =>
    intro hrun q p _ hn hw
    rw [takeUp_part] at hrun
    rw [waiting] at hw
    by_cases hq : q = o
    · subst hq
      rw [inHand_takeUp_self] at hn
      obtain ⟨ho, hentry⟩ := nextPort_none hrun hocc hn hw
      exact ⟨ho, (claim ho).trans hentry⟩
    · rw [inHand_takeUp_ne hq] at hn
      obtain ⟨hengine, hentry⟩ := hs.taken hrun q p (fun h => hq (Option.some.inj h)) hn hw
      refine ⟨hengine, ?_⟩
      rw [takeUp_inFlight_ne (fun ho => hq (hengine.trans ho.symm)), hentry]
  case idle =>
    intro _ hf
    rw [takeUp_queue]
    by_cases ho : o = .engine
    · by_cases hp : s.part = .stopped
      · exact hs.stopped hp
      · exact (chosenClaim_none ((claim ho).symm.trans hf) hp).1
    · exact hs.idle (fun h => ho (Option.some.inj h).symm) ((takeUp_inFlight_ne ho s).symm.trans hf)
  case stopped =>
    intro hp
    rw [takeUp_queue]
    exact hs.stopped ((takeUp_part o s).symm.trans hp)
  case order =>
    intro q
    rw [order]
    by_cases hq : q = o
    · subst hq
      rw [inHand_takeUp_self]
      split
      · next hsome => simp [hsome]
      · next hsome => simp [hsome, listed]
    · rw [inHand_takeUp_ne hq, ← hs.order q]
      split <;> simp [hq]
  case once =>
    rw [order]
    split
    · exact List.nodup_append.mpr ⟨hs.once, List.nodup_singleton o, fun a ha b hb hab => by
        rw [List.mem_singleton] at hb
        exact listed (hb ▸ hab ▸ ha)⟩
    · exact hs.once

/-- With more in the queue the engine may have the queue head to take up. -/
theorem Hands.requeue (hs : Hands b none s) (hp : s.part ≠ .stopped) {q : List Entry} (hq : s.queue ≠ [] → q ≠ []) :
    Hands b (some .engine) { s with queue := q } where
  waits := hs.waits
  live := hs.live
  head := fun hf => hq (hs.head hf)
  taken := fun hrun o p _ => hs.taken hrun o p nofun
  idle := fun h => absurd rfl h
  stopped := fun h => absurd h hp
  order := hs.order
  once := hs.once

theorem Hands.weaken (hs : Hands b none s) (x : Option Owner) : Hands b x s :=
  { hs with
    taken := fun hrun o p _ => hs.taken hrun o p nofun
    idle := fun _ => hs.idle nofun }

end

/-! ## Requests performed and completed (10 R170, R171) -/

/-- What waits, what is in hand and the part's phase are as they were; an owner without one may have taken something. -/
structure HandsStay (s t : State) : Prop where
  waiting : ∀ o p, waitingAt t o p = waitingAt s o p
  part : t.part = s.part
  hand : ∀ o p, inHand s o = some p → inHand t o = some p
  flight : ∀ c, s.inFlight = some c → t.inFlight = some c

section
variable {b : Prop} {s t u : State} {o : Owner} {p : Port}

theorem SameHands.stay (h : SameHands s t) : HandsStay s t :=
  ⟨h.waiting, h.part, fun o _ hp => (h.inHand o).trans hp, fun _ hc => h.inFlight.trans hc⟩

theorem HandsStay.trans (h : HandsStay s t) (h' : HandsStay t u) : HandsStay s u :=
  ⟨fun o p => (h'.waiting o p).trans (h.waiting o p), h'.part.trans h.part, fun o p hp => h'.hand o p (h.hand o p hp),
    fun c hc => h'.flight c (h.flight c hc)⟩

theorem handsStay_takeUp (o : Owner) (s : State) : HandsStay s (takeUp o s) := by
  by_cases hocc : Occupied s o
  · rw [takeUp_occupied hocc]
    exact (SameHands.refl s).stay
  refine ⟨fun q p => by simp only [waitingAt, common_takeUp], takeUp_part .., fun q p hp => ?_, fun c hc => ?_⟩
  · by_cases hq : q = o
    · subst hq
      rw [inHand_of_not_occupied hocc] at hp
      cases hp
    · exact (inHand_takeUp_ne hq s).trans hp
  · by_cases ho : o = .engine
    · subst ho
      exact absurd (fun hn => by rw [hn] at hc; cases hc) hocc
    · exact (takeUp_inFlight_ne ho s).trans hc

/-- Nothing of what waits at a port whose area stays as it is changes. -/
theorem waitingAt_congr (h : (t.common p).area = (s.common p).area) (o : Owner) : waitingAt t o p = waitingAt s o p := by
  simp only [waitingAt, h]

theorem tablesOnly_sameHands (h : TablesOnly s t) : SameHands s t := by
  rw [h]
  exact .of_fields rfl rfl rfl rfl rfl rfl rfl rfl

theorem setAllowance_sameHands (r : Request) (s : State) : (performSetAllowance r s).Leads (SameHands s) := by
  unfold performSetAllowance
  split
  · next i ep an _ _ _ =>
    show SameHands s (storeAllowances i ep an s)
    rw [storeAllowances_frame]
    exact .of_fields rfl rfl rfl rfl rfl rfl rfl rfl
  · trivial

theorem setFeedInput_sameHands (r : Request) (s : State) : (performSetFeedInput r s).Leads (SameHands s) := by
  unfold performSetFeedInput
  split
  · exact .of_fields rfl rfl rfl rfl rfl rfl rfl rfl
  · trivial

theorem declareAbnormal_sameHands (r : Request) (s : State) : (performDeclareAbnormal r s).Leads (SameHands s) := by
  unfold performDeclareAbnormal
  split
  · trivial
  · dsimp only
    split
    · exact .of_fields rfl rfl rfl rfl rfl rfl rfl rfl
    · trivial

theorem endAbnormal_sameHands (r : Request) (s : State) : (performEndAbnormal r s).Leads (SameHands s) := by
  unfold performEndAbnormal
  split
  · trivial
  · dsimp only
    split
    · exact .of_fields rfl rfl rfl rfl rfl rfl rfl rfl
    · trivial

theorem setGrace_sameHands (r : Request) (s : State) : (performSetGrace r s).Leads (SameHands s) := by
  unfold performSetGrace
  split
  · exact .of_fields rfl rfl rfl rfl rfl rfl rfl rfl
  · trivial

theorem setCalendar_sameHands (r : Request) (s : State) : (performSetCalendar r s).Leads (SameHands s) := by
  unfold performSetCalendar
  split
  · trivial
  · exact Reply.leads_check fun _ => Reply.leads_check fun _ => .of_fields rfl rfl rfl rfl rfl rfl rfl rfl

theorem resumeAt_sameHands (m : MinuteStamp) (s : State) : SameHands s (resumeAt m s) :=
  .of_fields rfl rfl rfl rfl rfl rfl rfl rfl

/-- Only RESUME reaches what the owners have in hand: an idle engine takes the outage gap. -/
theorem performRequest_sameHands {c : RequestCode} (hc : c ≠ .resume) (r : Request) (s : State) :
    (performRequest c r s).Leads (SameHands s) := by
  have tables (howner : c.owner = .engine) (hne : c ≠ .setAllowance) : (performRequest c r s).Leads (SameHands s) :=
    (engineRequest_tablesOnly howner hne r s).mono fun _ => tablesOnly_sameHands
  cases c with
  | resume => exact absurd rfl hc
  | setAllowance => exact setAllowance_sameHands r s
  | setFeedInput => exact setFeedInput_sameHands r s
  | declareAbnormal => exact declareAbnormal_sameHands r s
  | endAbnormal => exact endAbnormal_sameHands r s
  | setGrace => exact setGrace_sameHands r s
  | setCalendar => exact setCalendar_sameHands r s
  | _ => exact tables rfl nofun

/-- A gap appended to the queue, taken by an idle engine. -/
theorem Hands.gapTaken (hs : Hands b none s) (hp : s.part ≠ .stopped) (start : HalfHourStamp) (n : Nat) :
    Hands b none (takeUp .engine (appendGap start n s)) := by
  have appended : Hands b (some .engine) (appendGap start n s) :=
    (hs.requeue hp fun _ => List.append_ne_nil_of_right_ne_nil _ (List.cons_ne_nil _ _)).same
      (.of_fields rfl rfl rfl rfl rfl rfl rfl rfl)
  exact appended.takenUp

theorem handsStay_gapTaken (start : HalfHourStamp) (n : Nat) (s : State) :
    HandsStay s (takeUp .engine (appendGap start n s)) := by
  have appended : HandsStay s (appendGap start n s) := ⟨fun _ _ => rfl, rfl, fun o _ hp => by cases o <;> exact hp, fun _ => id⟩
  exact appended.trans (handsStay_takeUp ..)

/-- What is in hand stays in hand while a request is performed. -/
theorem Hands.performed (hs : Hands b none s) (hp : s.part ≠ .stopped) (c : RequestCode) (r : Request) :
    (performRequest c r s).Leads fun t => Hands b none t ∧ HandsStay s t := by
  by_cases hc : c = .resume
  · subst hc
    cases h : performRequest .resume r s with
    | refused o => trivial
    | read v snap => trivial
    | done v t =>
      obtain ⟨m, S, rfl | rfl⟩ := performResume_done r s v t h
      · exact ⟨hs.same (resumeAt_sameHands ..), (resumeAt_sameHands ..).stay⟩
      · exact ⟨(hs.gapTaken hp _ _).same (resumeAt_sameHands ..),
          (handsStay_gapTaken _ _ _).trans (resumeAt_sameHands ..).stay⟩
  · exact (performRequest_sameHands hc r s).mono fun _ h => ⟨hs.same h, h.stay⟩

/-- An answer is the completion of the port's area on a state in which what was in hand is in hand still. -/
theorem Hands.answered (hs : Hands b none s) (hp : s.part ≠ .stopped) (q : Port) (code : Byte) (c : RequestCode) (r : Request) :
    ∃ t out l, answer q code (performRequest c r s) s = complete q code out l t ∧ Hands b none t ∧ HandsStay s t := by
  have performed := hs.performed hp c r
  cases h : performRequest c r s with
  | refused out => exact ⟨s, out, [], rfl, hs, (SameHands.refl s).stay⟩
  | done v t =>
    rw [h] at performed
    exact ⟨t, .done, v, rfl, performed⟩
  | read v snap =>
    have viewed : SameHands s (setView q snap s) := by
      refine ⟨fun o p => waitingAt_congr ?_ o, setView_part .., setView_queue .., setView_inFlight ..,
        setView_monitorHand .., setView_clockHand .., setView_handOrder ..⟩
      cases q <;> cases p <;> rfl
    exact ⟨setView q snap s, .done, v, rfl, hs.same viewed, viewed.stay⟩

theorem waitingAt_complete_self (p : Port) (code : Byte) (out : ReqOutcome) (l : List Word32) (t : State) (o : Owner) :
    waitingAt (complete p code out l t) o p = none := by
  refine waitingAt_done ?_
  cases p <;> rfl

theorem waitingAt_complete_ne {q : Port} (h : q ≠ p) (code : Byte) (out : ReqOutcome) (l : List Word32) (t : State)
    (o : Owner) : waitingAt (complete p code out l t) o q = waitingAt t o q := by
  refine waitingAt_congr ?_ o
  cases p <;> cases q <;> trivial

theorem inHand_complete (p : Port) (code : Byte) (out : ReqOutcome) (l : List Word32) (t : State) (o : Owner) :
    inHand (complete p code out l t) o = inHand t o :=
  inHand_congr (complete_inFlight ..) (complete_monitorHand ..) (complete_clockHand ..) o

theorem inHand_release_self (o : Owner) (s : State) : inHand (release o s) o = none := by cases o <;> rfl

theorem inHand_release_ne {q : Owner} (h : q ≠ o) (s : State) : inHand (release o s) q = inHand s q := by
  cases o <;> cases q <;> trivial

theorem release_inFlight_ne (h : o ≠ .engine) (s : State) : (release o s).inFlight = s.inFlight := by
  cases o with
  | engine => exact absurd rfl h
  | monitor => rfl
  | clock => rfl

theorem release_handOrder (o : Owner) (s : State) : (release o s).handOrder = s.handOrder.filter (· != o) := by
  cases o <;> rfl

theorem waitingAt_release (o q : Owner) (p : Port) (s : State) : waitingAt (release o s) q p = waitingAt s q p := by
  simp only [waitingAt, common_release]

/-- A port's request waits at one owner only. -/
theorem owner_unique {q : Owner} (h : (waitingAt s o p).isSome) (h' : (waitingAt s q p).isSome) : o = q := by
  obtain ⟨r, hr⟩ := Option.isSome_iff_exists.mp h
  obtain ⟨r', hr'⟩ := Option.isSome_iff_exists.mp h'
  obtain ⟨-, hl, c, hc, rfl⟩ := (waitingAt_iff s o p r).mp hr
  obtain ⟨-, hl', c', hc', rfl⟩ := (waitingAt_iff s q p r').mp hr'
  cases hl.symm.trans hl'
  cases hc.symm.trans hc'
  rfl

/-- Two owners never have the request of one port in hand. -/
theorem Hands.port_ne (hs : Hands b none s) (ho : inHand s o = some p) {q : Owner} (hq : q ≠ o) {p' : Port}
    (hp : (waitingAt s q p').isSome) : p' ≠ p := by
  rintro rfl
  exact hq (owner_unique hp (hs.waits o _ ho))

/-- Behind the completion of its request an owner has yet to take up what waits. -/
theorem Hands.released (hs : Hands b none s) (ho : inHand s o = some p) (code : Byte) (out : ReqOutcome) (l : List Word32) :
    Hands b (some o) (release o (complete p code out l s)) where
  waits := fun q p' hp => by
    by_cases hq : q = o
    · subst hq
      rw [inHand_release_self] at hp
      cases hp
    · rw [inHand_release_ne hq, inHand_complete] at hp
      have waits := hs.waits q p' hp
      rw [waitingAt_release, waitingAt_complete_ne (hs.port_ne ho hq waits)]
      exact waits
  live := fun _ _ _ => by
    rw [release_part, complete_part]
    exact hs.live o p ho
  head := fun hf => by
    rw [release_queue, complete_queue]
    by_cases he : o = .engine
    · subst he
      cases hf
    · rw [release_inFlight_ne he, complete_inFlight] at hf
      exact hs.head hf
  taken := fun hrun q p' hq hn hw => by
    have hne : q ≠ o := fun h => hq (congrArg some h)
    rw [release_part, complete_part] at hrun
    rw [inHand_release_ne hne, inHand_complete] at hn
    rw [waitingAt_release] at hw
    by_cases hp : p' = p
    · subst hp
      rw [waitingAt_complete_self] at hw
      cases hw
    · rw [waitingAt_complete_ne hp] at hw
      obtain ⟨hengine, hentry⟩ := hs.taken hrun q p' nofun hn hw
      refine ⟨hengine, ?_⟩
      rw [release_inFlight_ne (fun ho => hne (hengine.trans ho.symm)), complete_inFlight, hentry]
  idle := fun hx hf => by
    have hne : o ≠ .engine := fun h => hx (congrArg some h.symm)
    rw [release_inFlight_ne hne, complete_inFlight] at hf
    rw [release_queue, complete_queue]
    exact hs.idle nofun hf
  stopped := fun hp => by
    rw [release_part, complete_part] at hp
    exact absurd hp (hs.not_stopped ho)
  order := fun q => by
    rw [release_handOrder, complete_handOrder, List.mem_filter, hs.order q]
    by_cases hq : q = o
    · subst hq
      simp [inHand_release_self]
    · simp [inHand_release_ne hq, inHand_complete, hq]
  once := by
    rw [release_handOrder, complete_handOrder]
    exact hs.once.filter _

/-- A request in hand completed keeps the law, and the part's phase. -/
theorem Hands.completed (hs : Hands b none s) {c : RequestCode} {r : Request} (h : handRequest s o = some (p, c, r)) :
    Hands b none (finish o (answer p r.code (performRequest c r s) s)) ∧
      (finish o (answer p r.code (performRequest c r s) s)).part = s.part := by
  obtain ⟨hhand, -, -⟩ := handRequest_iff.mp h
  obtain ⟨t, out, l, answered, ht, hstay⟩ := hs.answered (hs.not_stopped hhand) p r.code c r
  rw [answered]
  exact ⟨(ht.released (hstay.hand o p hhand) r.code out l).takenUp, by rw [finish_part, complete_part, hstay.part]⟩

theorem Hands.completedInHand (hs : Hands b none s) (q : Owner) :
    Hands b none (completeInHand q s) ∧ (completeInHand q s).part = s.part :=
  completeInHand_induct (P := fun t => Hands b none t ∧ t.part = s.part) (fun _ _ _ _ _ ht h => by
    obtain ⟨hands, part⟩ := ht.1.completed h
    exact ⟨hands, part.trans ht.2⟩) ⟨hs, rfl⟩ q

theorem Hands.allCompleted (hs : Hands b none s) : Hands b none (completeAll s) ∧ (completeAll s).part = s.part :=
  completeAll_induct (P := fun t => Hands b none t ∧ t.part = s.part) (fun _ _ _ _ _ ht h => by
    obtain ⟨hands, part⟩ := ht.1.completed h
    exact ⟨hands, part.trans ht.2⟩) ⟨hs, rfl⟩

/-- Two completions leave nothing in hand: each port has one request at most. -/
theorem Hands.allCompleted_none (hs : Hands b none s) : NoneInHand (completeAll s) := by
  obtain ⟨hands, -⟩ := hs.allCompleted
  have settled : completeFirst (completeAll s) = completeAll s := completeFirst_thrice s
  generalize completeAll s = t at hands settled
  suffices empty : t.handOrder = [] by
    intro o
    have unlisted := mt (hands.order o).mpr (by rw [empty]; exact List.not_mem_nil)
    exact Option.not_isSome_iff_eq_none.mp unlisted
  cases hl : t.handOrder with
  | nil => rfl
  | cons o rest =>
    have listed : o ∈ t.handOrder := by rw [hl]; exact List.mem_cons_self
    obtain ⟨p, hp⟩ := Option.isSome_iff_exists.mp ((hands.order o).mp listed)
    obtain ⟨r, hr⟩ := Option.isSome_iff_exists.mp (hands.waits o p hp)
    obtain ⟨-, -, c, hc, -⟩ := (waitingAt_iff t o p r).mp hr
    have inHand_o : handRequest t o = some (p, c, r) := handRequest_iff.mpr ⟨hp, hr, hc⟩
    have again : finish o (answer p r.code (performRequest c r t) t) = t := by
      rw [completeFirst, hl] at settled
      simpa only [completeInHand, inHand_o] using settled
    have done : (t.common p).area.state = .done := by
      rw [← again, common_finish]
      exact answer_done ..
    rw [waitingAt_done done] at hr
    cases hr

/-- What another owner completes leaves an owner's request in hand. -/
theorem Hands.request_kept (hs : Hands b none s) {q : Owner} (hq : q ≠ o) {x : Port × RequestCode × Request}
    (h : handRequest s o = some x) : handRequest (completeInHand q s) o = some x := by
  obtain ⟨p, c, r⟩ := x
  obtain ⟨hhand, hwait, hcode⟩ := handRequest_iff.mp h
  unfold completeInHand
  split
  · next p' c' r' h' =>
    obtain ⟨hhand', -, -⟩ := handRequest_iff.mp h'
    obtain ⟨t, out, l, answered, ht, hstay⟩ := hs.answered (hs.not_stopped hhand') p' r'.code c' r'
    have waitsStill : waitingAt t o p = some r := (hstay.waiting o p).trans hwait
    have apart : p ≠ p' := ht.port_ne (hstay.hand q p' hhand') hq.symm (by rw [waitsStill]; rfl)
    rw [answered]
    refine handRequest_iff.mpr ⟨?_, ?_, hcode⟩
    · rw [finish, inHand_takeUp_ne hq.symm, inHand_release_ne hq.symm, inHand_complete, hstay.hand o p hhand]
    · rw [waitingAt_congr (s := complete p' r'.code out l t) (by rw [common_finish]), waitingAt_complete_ne apart, waitsStill]
  · exact h

/-- What another owner completes leaves the engine's claim in flight. -/
theorem Hands.flight_kept (hs : Hands b none s) {q : Owner} (hq : q ≠ .engine) {k : Claim} (h : s.inFlight = some k) :
    (completeInHand q s).inFlight = some k := by
  unfold completeInHand
  split
  · next p' c' r' h' =>
    obtain ⟨hhand', -, -⟩ := handRequest_iff.mp h'
    obtain ⟨t, out, l, answered, -, hstay⟩ := hs.answered (hs.not_stopped hhand') p' r'.code c' r'
    rw [answered, finish, takeUp_inFlight_ne hq, release_inFlight_ne hq, complete_inFlight, hstay.flight k h]
  · exact h

/-- What an owner finds completed before its own request or absorption belongs to other owners. -/
theorem completeEarlierFirst_cases (o : Owner) (s : State) :
    completeEarlierFirst o s = s ∨ ∃ q, q ≠ o ∧ completeEarlierFirst o s = completeInHand q s := by
  unfold completeEarlierFirst
  split
  · next q hq =>
    have earlier := List.mem_takeWhile_imp (List.mem_of_find?_eq_some hq)
    exact .inr ⟨q, by simpa using earlier, rfl⟩
  · exact .inl rfl

/-- A property that the completions at other owners keep holds behind what an owner finds completed, with the law and the
part's phase. -/
theorem Hands.earlierCompleted {P : State → Prop} (o : Owner)
    (step : ∀ t q, Hands b none t → P t → q ≠ o → P (completeInHand q t)) (hs : Hands b none s) (h : P s) :
    Hands b none (completeEarlier o s) ∧ (completeEarlier o s).part = s.part ∧ P (completeEarlier o s) := by
  have one (t : State) (ht : Hands b none t ∧ t.part = s.part ∧ P t) :
      Hands b none (completeEarlierFirst o t) ∧ (completeEarlierFirst o t).part = s.part ∧ P (completeEarlierFirst o t) := by
    obtain ⟨hands, part, hP⟩ := ht
    rcases completeEarlierFirst_cases o t with same | ⟨q, hq, completed⟩
    · rw [same]
      exact ⟨hands, part, hP⟩
    · obtain ⟨handsAfter, partAfter⟩ := hands.completedInHand q
      rw [completed]
      exact ⟨handsAfter, partAfter.trans part, step t q hands hP hq⟩
  exact one _ (one _ ⟨hs, rfl, h⟩)

end

/-! ## The rows of requests and absorptions -/

section
variable {b : Prop} {s t : State}

/-- Between commands a request taken next at its owner is the one in hand: what waits at an owner with nothing in hand waits
behind a queue head (07 R116, 10 R170). -/
theorem Hands.request_inHand (hs : Hands b none s) {c : RequestCode} {p : Port} {r : Request}
    (h : takenRequest s c = some (p, r)) : handRequest s c.owner = some (p, c, r) := by
  unfold takenRequest at h
  split at h
  · next q hq =>
    split at h
    · next r' hr =>
      split at h
      · next hcode =>
        cases h
        suffices hhand : inHand s c.owner = some p from handRequest_eq hhand hr hcode
        rw [← inHand_takeUp_self] at hq
        by_cases hocc : Occupied s c.owner
        · rwa [takeUp_occupied hocc] at hq
        · rw [inHand_takeUp_self] at hq
          obtain ⟨hrun, hw⟩ := nextPort_waits hocc hq
          obtain ⟨hengine, hentry⟩ := hs.taken hrun _ p nofun (inHand_of_not_occupied hocc) hw
          rw [hengine] at hocc
          exact absurd (fun hn => by rw [hn] at hentry; cases hentry) hocc
      · cases h
    · cases h
  · cases h

theorem Hands.runRequest (hs : Hands b none s) (c : RequestCode) :
    Answer.Leads (Hands b none) (runRequest c (performRequest c) s) := by
  unfold Machine.runRequest
  split
  · exact hs
  · next p r htaken =>
    obtain ⟨hands, -, kept⟩ := Hands.earlierCompleted (P := fun t => handRequest t c.owner = some (p, c, r)) c.owner
      (fun t q ht h hq => ht.request_kept hq h) hs (hs.request_inHand htaken)
    exact (hands.completed kept).1

/-- Between commands a queue head that is absorbed next is in flight (07 R114). -/
theorem Hands.head_inFlight (hs : Hands b none s) {e : Entry} (h : claimedHead s = some e) :
    s.inFlight = some .entry := by
  unfold claimedHead at h
  split at h
  · next hclaim =>
    cases hf : s.inFlight with
    | none =>
      rw [hs.idle nofun hf] at h
      cases h
    | some k =>
      rw [nextClaim, hf] at hclaim
      exact hclaim
  all_goals cases h

/-- The absorption is over: the head leaves the queue, and the engine takes up what it chooses. -/
theorem Hands.headRemoved (hs : Hands b none s) (hf : s.inFlight = some .entry) : Hands b none (removeHead s) := by
  have free : inHand s .engine = none := inHand_engine_none.mpr (.inr hf)
  have hand (o : Owner) :
      inHand { s with queue := s.queue.tail, inFlight := none, lastClaim := .entry } o = inHand s o := by
    cases o with
    | engine => exact free.symm
    | monitor => rfl
    | clock => rfl
  have absorbed : Hands b (some .engine) { s with queue := s.queue.tail, inFlight := none, lastClaim := .entry } :=
    { waits := fun o p hp => hs.waits o p (hand o ▸ hp)
      live := fun o p hp => hs.live o p (hand o ▸ hp)
      head := nofun
      taken := fun hrun o p ho hn hw => by
        obtain ⟨hengine, -⟩ := hs.taken hrun o p nofun (hand o ▸ hn) hw
        exact absurd (congrArg some hengine) ho
      idle := fun h => absurd rfl h
      stopped := fun hp => absurd (hs.stopped hp) (hs.head hf)
      order := fun o => by
        rw [hand]
        exact hs.order o
      once := hs.once }
  exact absorbed.takenUp

theorem absorbResult_sameHands (e : ResultEntry) (s : State) : SameHands s (absorbResult e s) := by
  rw [absorbResult_frame]
  exact .of_fields rfl rfl rfl rfl rfl rfl rfl rfl

theorem absorbStack_sameHands (e : StackEntry) (s : State) : SameHands s (absorbStack e s) := by
  rw [absorbStack_frame]
  exact .of_fields rfl rfl rfl rfl rfl rfl rfl rfl

theorem closeDay_sameHands (Y D : Nat) (s : State) : SameHands s (closeDay Y D s) := by
  rw [closeDay_frame]
  exact .of_fields rfl rfl rfl rfl rfl rfl rfl rfl

theorem closeYear_sameHands (Y : Nat) (s : State) : SameHands s (closeYear Y s) := by
  rw [closeYear_frame]
  exact .of_fields rfl rfl rfl rfl rfl rfl rfl rfl

theorem walkGap_sameHands (charged : List SlotNo) (n : Nat) (x : HalfHourStamp) (s : State) :
    SameHands s (walkGap charged n x s) := by
  rw [walkGap_frame]
  exact .of_fields rfl rfl rfl rfl rfl rfl rfl rfl

theorem absorbing_sameHands (e : Entry) (s : State) : SameHands s (absorbing e s) := by
  cases e with
  | result e => exact absorbResult_sameHands e s
  | stack e => exact absorbStack_sameHands e s
  | dayEnd Y D => exact closeDay_sameHands Y D s
  | yearEnd Y => exact closeYear_sameHands Y s
  | gap g => exact walkGap_sameHands g.charged g.count g.start s

theorem Hands.absorbHead (hs : Hands b none s) {e : Entry} (h : claimedHead s = some e) :
    Hands b none (absorbHead (absorbing e) s) := by
  obtain ⟨hands, -, flight⟩ := Hands.earlierCompleted (P := fun t => t.inFlight = some .entry) .engine
    (fun t q ht h hq => ht.flight_kept hq h) hs (hs.head_inFlight h)
  have same := absorbing_sameHands e (completeEarlier .engine s)
  exact (hands.same same).headRemoved (same.inFlight.trans flight)

/-! ## Collections, boundaries and the stop -/

/-- The queue never becomes empty by a recorded half-hour (06 R106 to R108). -/
theorem queueBatch_grows (h : HalfHourStamp) (l : List Entry) (hq : s.queue ≠ []) : (queueBatch h l s).queue ≠ [] := by
  have last (q : List Entry) (g : Entry) : q ++ [g] ≠ [] := List.append_ne_nil_of_right_ne_nil _ (List.cons_ne_nil _ _)
  unfold queueBatch
  split
  · exact hq
  · split
    · exact List.append_ne_nil_of_left_ne_nil hq _
    · unfold recordGap
      split
      · split
        · exact last _ _
        · split
          · exact last _ _
          · exact last _ _
      all_goals
        split
        · exact last _ _
        · exact hq

theorem Hands.offerBatch (hs : Hands b none s) (hp : s.part ≠ .stopped) (h : HalfHourStamp) (l : List Entry) :
    Hands b none (offerBatch h l s) := by
  have queued : Hands b (some .engine) (queueBatch h l s) := by
    rw [queueBatch_frame]
    exact (hs.requeue hp (queueBatch_grows h l)).same (.of_fields rfl rfl rfl rfl rfl rfl rfl rfl)
  exact queued.takenUp

theorem Hands.closeHalfHour (hs : Hands b none s) (hp : s.part ≠ .stopped) (h : HalfHourStamp) :
    Hands b none (closeHalfHour h s) := by
  have restarted (t : State) : SameHands t (raiseEvent .halfHourClosed h.hh (restartHalfHour t)) :=
    .of_fields rfl rfl rfl rfl rfl rfl rfl rfl
  exact (hs.offerBatch hp h (batch s h)).same (restarted _)

theorem Hands.collectMinute (hs : Hands b none s) (hp : s.part ≠ .stopped) (m : MinuteStamp) (i : Bool) :
    Hands b none (collectMinute m i s) := by
  have records : SameHands s (collectRecords m i s) := .of_fields rfl rfl rfl rfl rfl rfl rfl rfl
  have raised (c : ChannelNo) : SameHands s (raiseEvent .minuteIncomplete c (collectRecords m i s)) :=
    records.trans (.of_fields rfl rfl rfl rfl rfl rfl rfl rfl)
  unfold Machine.collectMinute
  dsimp only
  split
  · split
    · exact (hs.same (raised _)).closeHalfHour hp _
    · exact (hs.same records).closeHalfHour hp _
  · split
    · exact hs.same (raised _)
    · exact hs.same records

theorem Hands.collectGrace (hs : Hands b none s) (hp : s.part ≠ .stopped) : Hands b none (collectGrace s) := by
  cases h : s.clock.inGrace with
  | none => rwa [collectGrace_none h]
  | some g =>
    rw [collectGrace_some h]
    exact (hs.collectMinute hp g.stamp g.internal).same (.of_fields rfl rfl rfl rfl rfl rfl rfl rfl)

theorem Hands.startGrace (hs : Hands b none s) (hp : s.part ≠ .stopped) (i : Bool) : Hands b none (startGrace i s) := by
  unfold Machine.startGrace
  dsimp only
  split
  · exact Hands.collectGrace (hs.same (.of_fields rfl rfl rfl rfl rfl rfl rfl rfl)) hp
  · exact hs.same (.of_fields rfl rfl rfl rfl rfl rfl rfl rfl)

theorem Hands.endOfRange (hs : Hands b none s) (hp : s.part ≠ .stopped) (i : Bool) : Hands b none (endOfRange i s) := by
  have frozen : Hands b none (freezeMarks s) := hs.same (.of_fields rfl rfl rfl rfl rfl rfl rfl rfl)
  exact (frozen.collectMinute hp s.clock.position i).same (.of_fields rfl rfl rfl rfl rfl rfl rfl rfl)

theorem Hands.boundary (hs : Hands b none s) (hp : s.part ≠ .stopped) (i : Bool) : Hands b none (boundary i s) := by
  have collected := hs.collectGrace hp
  have part : (Machine.collectGrace s).part ≠ .stopped := by rwa [collectGrace_part]
  unfold Machine.boundary
  dsimp only
  split
  · exact collected.endOfRange part i
  · exact (collected.startGrace part i).same (.of_fields rfl rfl rfl rfl rfl rfl rfl rfl)

/-- The clock leaves RUN before the part stops (04 R81). -/
theorem ClockLaw.not_stopped (hs : ClockLaw s) (hrun : s.clock.state = .run) : s.part ≠ .stopped := by
  intro hp
  have stopped := hs.1.mpr (by rw [hp]; decide)
  rw [hrun] at stopped
  cases stopped

/-- What is in hand is completed in the running part: in RUN the part has not stopped behind all completions either. -/
theorem Hands.allCompleted_run (hs : Hands False none s) (hc : ClockLaw s)
    (hrun : (completeAll s).clock.state = .run) : (completeAll s).part ≠ .stopped := by
  by_cases hp : s.part = .stopped
  · have nothing : NoneInHand s := fun o => by
      cases h : inHand s o with
      | none => rfl
      | some p => exact absurd hp (hs.not_stopped h)
    rw [completeAll_none nothing] at hrun ⊢
    exact hc.not_stopped hrun
  · rwa [hs.allCompleted.2]

theorem Hands.takePulse (hs : Hands b none s) (hp : s.clock.state = .run → s.part ≠ .stopped) :
    Hands b none (takePulse s) := by
  unfold Machine.takePulse
  split
  · exact hs
  · next hrun =>
    replace hp := hp (not_not.mp hrun)
    split
    · exact hs
    · exact hs.boundary hp false
    · exact hs.same (.of_fields rfl rfl rfl rfl rfl rfl rfl rfl)
    · have external : Hands b none (setSource .external s) := hs.same (.of_fields rfl rfl rfl rfl rfl rfl rfl rfl)
      exact external.boundary hp false

theorem Hands.expireSupervision (hs : Hands b none s) (hp : s.clock.state = .run → s.part ≠ .stopped) :
    Hands b none (expireSupervision s) := by
  have lost (t : State) : SameHands t (loseClock t) := by
    rw [loseClock_frame]
    exact .of_fields rfl rfl rfl rfl rfl rfl rfl rfl
  unfold Machine.expireSupervision
  split
  · next e hrun _ =>
    have advanced : SameHands s (advanceTo e s) := .of_fields rfl rfl rfl rfl rfl rfl rfl rfl
    exact (hs.same (advanced.trans (lost _))).boundary (by rw [loseClock_part]; exact hp hrun) true
  · exact hs

theorem Hands.expireGrace (hs : Hands b none s) (hp : s.clock.state = .run → s.part ≠ .stopped) :
    Hands b none (expireGrace s) := by
  unfold Machine.expireGrace
  split
  · next e hrun _ =>
    have advanced : Hands b none (advanceTo e s) := hs.same (.of_fields rfl rfl rfl rfl rfl rfl rfl rfl)
    exact advanced.collectGrace (hp hrun)
  · exact hs

theorem changeLine_sameHands (i : StackNo) (level : Bool) (s : State) : SameHands s (changeLine i level s) := by
  unfold changeLine
  split
  · exact .refl s
  · dsimp only
    split <;> exact .of_fields rfl rfl rfl rfl rfl rfl rfl rfl

theorem expireDebounce_sameHands (i : StackNo) (s : State) : SameHands s (expireDebounce i s) := by
  unfold expireDebounce
  dsimp only
  split
  · exact .refl s
  · split
    · exact .refl s
    · exact .of_fields rfl rfl rfl rfl rfl rfl rfl rfl

/-- The stop begins with the requests in hand still there (04 R81, 10 R173; assumption 25). -/
theorem Hands.stopping (hs : Hands False none s) : Hands True none { s with part := .stopping } where
  waits := hs.waits
  live := fun _ _ _ => .inr ⟨trivial, rfl⟩
  head := hs.head
  taken := nofun
  idle := hs.idle
  stopped := nofun
  order := hs.order
  once := hs.once

/-- The part stops with nothing in hand and nothing in the queue (04 R81, 07 R118). -/
theorem Hands.partStopped (hs : Hands False none s) (hp : s.part = .stopping) (hq : s.queue = []) :
    Hands False none { s with part := .stopped } where
  waits := hs.waits
  live := fun o p h => by
    have running := (hs.live o p h).resolve_right fun hb => hb.1
    rw [hp] at running
    cases running
  head := hs.head
  taken := nofun
  idle := hs.idle
  stopped := fun _ => hq
  order := hs.order
  once := hs.once

/-- The steps of the stop with nothing in hand: an idle engine takes the queue head (06 R112, 07 R118). -/
theorem Hands.stopBlocks (hs : Hands b none s) (hp : s.part ≠ .stopped) : Hands b none (stopBlocks s) := by
  have stopped {t : State} (ht : Hands b none t) : Hands b none (takeUp .engine (stopClock t)) := by
    have clock : Hands b none (stopClock t) := ht.same (.of_fields rfl rfl rfl rfl rfl rfl rfl rfl)
    exact (clock.weaken _).takenUp
  unfold Machine.stopBlocks
  split
  · exact stopped (hs.collectGrace hp)
  · exact stopped hs

theorem Hands.beginStop (hs : Hands False none s) : Hands False none (beginStop s) := by
  unfold Machine.beginStop
  split
  · obtain ⟨completed, part⟩ := hs.stopping.allCompleted
    refine (completed.of_none hs.stopping.allCompleted_none False).stopBlocks ?_
    rw [part]
    nofun
  · exact hs

/-- A restarted part has nothing waiting and nothing in hand (07 R114, 12 R189). -/
theorem hands_of_reset (hqueue : t.queue = []) (hf : t.inFlight = none) (hm : t.monitorHand = none)
    (hc : t.clockHand = none) (ho : t.handOrder = []) (hareas : ∀ p, (t.common p).area = .reset) : Hands b none t := by
  have nothing (o : Owner) : inHand t o = none := by cases o <;> simp [inHand, hf, hm, hc]
  have unasked (o : Owner) (p : Port) : waitingAt t o p = none := by
    simp only [waitingAt, hareas p]
    rfl
  exact
    { waits := fun o p hp => by rw [nothing] at hp; cases hp
      live := fun o p hp => by rw [nothing] at hp; cases hp
      head := fun h => by rw [hf] at h; cases h
      taken := fun _ o p _ _ hw => by rw [unasked] at hw; cases hw
      idle := fun _ _ => hqueue
      stopped := fun _ => hqueue
      order := fun o => by simp [ho, nothing]
      once := by rw [ho]; exact List.nodup_nil }

/-! ## The ports -/

theorem sameHands_setCommon {p : Port} {c : PortCommon} (h : c.area = (s.common p).area) :
    SameHands s (s.setCommon p c) := by
  refine ⟨fun o q => waitingAt_congr ?_ o, State.setCommon_part .., State.setCommon_queue .., State.setCommon_inFlight ..,
    State.setCommon_monitorHand .., State.setCommon_clockHand .., State.setCommon_handOrder ..⟩
  rw [common_setCommon]
  split
  · next hq =>
    subst hq
    exact h
  · rfl

theorem waitingAt_not_pending {p : Port} (h : (s.common p).area.state ≠ .pending) (o : Owner) :
    waitingAt s o p = none := by
  cases hw : waitingAt s o p with
  | none => rfl
  | some r => exact absurd ((waitingAt_iff s o p r).mp hw).1 h

theorem waitingAt_setArea_ne {p q : Port} (h : q ≠ p) (a : RequestArea) (o : Owner) :
    waitingAt (s.setArea p a) o q = waitingAt s o q :=
  waitingAt_congr (congrArg PortCommon.area (common_setCommon_ne h ..)) o

theorem inHand_setArea (p : Port) (a : RequestArea) (o : Owner) : inHand (s.setArea p a) o = inHand s o :=
  inHand_congr (State.setArea_inFlight ..) (State.setArea_monitorHand ..) (State.setArea_clockHand ..) o

/-- A request that its port refuses reaches no owner (10 R168). -/
theorem portRefused_sameHands {p : Port} (h : (s.common p).area.state ≠ .pending) (a : RequestArea) (code : Byte)
    (out : ReqOutcome) (l : List Word32) : SameHands s (complete p code out l (s.setArea p a)) := by
  refine ⟨fun o q => ?_, ?_, ?_, ?_, ?_, ?_, ?_⟩
  · by_cases hq : q = p
    · subst hq
      rw [waitingAt_complete_self, waitingAt_not_pending h]
    · rw [waitingAt_complete_ne hq, waitingAt_setArea_ne hq]
  · rw [complete_part, State.setArea_part]
  · rw [complete_queue, State.setArea_queue]
  · rw [complete_inFlight, State.setArea_inFlight]
  · rw [complete_monitorHand, State.setArea_monitorHand]
  · rw [complete_clockHand, State.setArea_clockHand]
  · rw [complete_handOrder, State.setArea_handOrder]

/-- A request that its port passes waits at its owner, which has yet to take it up (10 R168, R170). -/
theorem Hands.handedOver (hs : Hands b none s) {p : Port} (h : (s.common p).area.state ≠ .pending) {a : RequestArea}
    {c : RequestCode} {r : Request} (hr : a.latched = some r) (hc : RequestCode.ofByte r.code = some c) :
    Hands b (some c.owner) (s.setArea p a) where
  waits := fun o q hq => by
    rw [inHand_setArea] at hq
    have waits := hs.waits o q hq
    have apart : q ≠ p := by
      rintro rfl
      rw [waitingAt_not_pending h] at waits
      cases waits
    rwa [waitingAt_setArea_ne apart]
  live := fun o q hq => by
    rw [State.setArea_part]
    exact hs.live o q (inHand_setArea p a o ▸ hq)
  head := fun hf => by
    rw [State.setArea_queue]
    exact hs.head ((State.setArea_inFlight ..).symm.trans hf)
  taken := fun hrun o q ho hn hw => by
    rw [State.setArea_part] at hrun
    rw [inHand_setArea] at hn
    rw [State.setArea_inFlight]
    by_cases hq : q = p
    · subst hq
      obtain ⟨r', hr'⟩ := Option.isSome_iff_exists.mp hw
      obtain ⟨-, hl, c', hc', howner⟩ := (waitingAt_iff _ _ _ _).mp hr'
      rw [State.setArea, common_setCommon_self, hr] at hl
      cases hl
      cases hc.symm.trans hc'
      exact absurd (congrArg some howner.symm) ho
    · rw [waitingAt_setArea_ne hq] at hw
      exact hs.taken hrun o q nofun hn hw
  idle := fun _ hf => by
    rw [State.setArea_queue]
    exact hs.idle nofun ((State.setArea_inFlight ..).symm.trans hf)
  stopped := fun hp => by
    rw [State.setArea_queue]
    exact hs.stopped ((State.setArea_part ..).symm.trans hp)
  order := fun o => by
    rw [State.setArea_handOrder, inHand_setArea]
    exact hs.order o
  once := by
    rw [State.setArea_handOrder]
    exact hs.once

/-- A request that passes its port's checks has a code of the table (10 R168). -/
theorem portCheck_ok {r : Request} {c : RequestCode} (h : portCheck r = .ok c) : RequestCode.ofByte r.code = some c := by
  unfold portCheck at h
  split at h
  · cases h
  · next d hd =>
    split at h
    · cases h
    · split at h
      · cases h
      · cases h
        exact hd

theorem Hands.submit (hs : Hands b none s) {p : Port} (h : (s.common p).area.state ≠ .pending) :
    Hands b none (submit p s) := by
  unfold Machine.submit
  dsimp only
  split
  · exact hs.same (portRefused_sameHands h ..)
  · next c hc => exact (hs.handedOver h rfl (portCheck_ok hc)).takenUp

theorem Hands.goWrite (hs : Hands b none s) (p : Port) : Hands b none (goWrite p s) := by
  unfold Machine.goWrite
  split
  · exact hs
  · split
    · have busy (o : Owner) : waitingAt (s.setArea p { (s.common p).area with busy := true }) o p = waitingAt s o p := by
        simp only [waitingAt, State.setArea, common_setCommon_self]
      refine hs.same ⟨fun o q => ?_, State.setArea_part .., State.setArea_queue .., State.setArea_inFlight ..,
        State.setArea_monitorHand .., State.setArea_clockHand .., State.setArea_handOrder ..⟩
      by_cases hq : q = p
      · subst hq
        exact busy o
      · exact waitingAt_setArea_ne hq _ o
    · next hidle => exact hs.submit (by rw [hidle]; decide)
    · next hdone => exact hs.submit (by rw [hdone]; decide)

theorem recordWrite_sameHands (n : Nat) (v : Byte) (s : State) : SameHands s (recordWrite n v s) := by
  rw [recordWrite_frame]
  exact .of_fields rfl rfl rfl rfl rfl rfl rfl rfl

theorem handOver_sameHands (s : State) : SameHands s (handOver s) := by
  rw [handOver_frame]
  exact .of_fields rfl rfl rfl rfl rfl rfl rfl rfl

theorem postingWrite_sameHands (n : Nat) (v : Byte) (s : State) : SameHands s (postingWrite n v s) := by
  have selects {pa : PortA} (h : pa.common = s.portA.common) : SameHands s { s with portA := pa } :=
    ⟨fun o p => waitingAt_congr (by cases p <;> simp only [State.common, h]) o, rfl, rfl, rfl, rfl, rfl, rfl⟩
  unfold postingWrite
  split
  · exact selects rfl
  split
  · exact selects rfl
  split
  · exact recordWrite_sameHands n v s
  split
  · exact handOver_sameHands s
  · exact .refl s

/-- Only GO hands a request to its owner (10 R168). -/
theorem Hands.windowWrite (hs : Hands b none s) (p : Port) (loc : Loc) (v : Byte) :
    Hands b none (windowWrite p loc v s) := by
  by_cases hp : s.part = .stopped
  · rwa [windowWrite_stopped hp]
  rw [windowWrite_run hp]
  split
  · exact hs
  split
  · exact hs.same (sameHands_setCommon rfl)
  split
  · exact hs.goWrite p
  split
  · exact hs.same (sameHands_setCommon rfl)
  split
  · exact hs.same (sameHands_setCommon rfl)
  split
  · exact hs
  split
  · exact hs.same (postingWrite_sameHands _ v s)
  · exact hs.same (.of_fields rfl rfl rfl rfl rfl rfl rfl rfl)

theorem windowRead_sameHands (p : Port) (loc : Loc) (s : State) : SameHands s (windowRead p loc s).2 := by
  unfold windowRead
  dsimp only
  split
  · exact .refl s
  split
  · exact sameHands_setCommon rfl
  split
  · exact sameHands_setCommon rfl
  split
  · exact .of_fields rfl rfl rfl rfl rfl rfl rfl rfl
  split
  · exact .of_fields rfl rfl rfl rfl rfl rfl rfl rfl
  · exact .refl s

/-- Port A and port B changed apart from what each has for itself. -/
theorem SameHands.of_commons (hA : t.portA.common.area = s.portA.common.area)
    (hB : t.portB.common.area = s.portB.common.area) (hp : t.part = s.part) (hq : t.queue = s.queue)
    (hf : t.inFlight = s.inFlight) (hm : t.monitorHand = s.monitorHand) (hc : t.clockHand = s.clockHand)
    (ho : t.handOrder = s.handOrder) : SameHands s t :=
  ⟨fun o p => waitingAt_congr (by cases p <;> assumption) o, hp, hq, hf, hm, hc, ho⟩

theorem pointAt_sameHands (f : Phase) (loc : Loc) (s : State) : SameHands s (pointAt f loc s) :=
  .of_commons rfl rfl rfl rfl rfl rfl rfl rfl

theorem enqueueAnswer_sameHands (v : Byte) (s : State) : SameHands s (enqueueAnswer v s) := by
  unfold enqueueAnswer
  split <;> exact .of_commons rfl rfl rfl rfl rfl rfl rfl rfl

theorem Hands.receiveByte (hs : Hands b none s) (v : Byte) : Hands b none (receiveByte v s) := by
  unfold Machine.receiveByte
  split
  · exact hs
  · split
    · exact (hs.same (pointAt_sameHands .selector s.portB.pointer s)).windowWrite ..
    · split
      · have read := (pointAt_sameHands .selector (v.setWidth 7) s).trans (windowRead_sameHands .b (v.setWidth 7) _)
        exact hs.same (read.trans (enqueueAnswer_sameHands ..))
      · exact hs.same (pointAt_sameHands ..)

theorem Hands.portWrite (hs : Hands b none s) (p : Port) (loc : Loc) (v : Byte) :
    Answer.Leads (Hands b none) (portWrite p loc v s) := by
  cases p with
  | a =>
    show Answer.Leads _ (frameWrite loc v s)
    unfold frameWrite
    split
    · exact (hs.windowWrite .a loc v).same (.of_commons rfl rfl rfl rfl rfl rfl rfl rfl)
    · exact hs
  | b =>
    show Answer.Leads _ (valueWrite loc v s)
    unfold valueWrite
    split
    · exact hs.receiveByte v
    · exact hs

theorem Hands.portRead (hs : Hands b none s) (p : Port) (loc : Loc) :
    Answer.Leads (Hands b none) (portRead p loc s) := by
  cases p with
  | a =>
    show Answer.Leads _ (frameRead loc s)
    unfold frameRead
    split
    · exact hs.same ((windowRead_sameHands .a loc s).trans (.of_commons rfl rfl rfl rfl rfl rfl rfl rfl))
    · exact hs
  | b =>
    show Answer.Leads _ (selectorRead loc s)
    unfold selectorRead
    split
    · exact hs.receiveByte _
    · exact hs

theorem shiftPlainByte_sameHands (h : shiftPlainByte s = some t) : SameHands s t := by
  unfold shiftPlainByte at h
  split at h
  · split at h
    · cases h
    · cases h
      exact .of_commons rfl rfl rfl rfl rfl rfl rfl rfl
  all_goals cases h

theorem execFrameStart_sameHands (s : State) : Answer.Leads (SameHands s) (execFrameStart s) := by
  unfold execFrameStart
  split
  · exact .refl s
  · exact .of_commons rfl rfl rfl rfl rfl rfl rfl rfl

theorem execFrameHeader_sameHands (header : Byte) (s : State) :
    Answer.Leads (SameHands s) (execFrameHeader header s) := by
  unfold execFrameHeader
  split
  · exact .of_commons rfl rfl rfl rfl rfl rfl rfl rfl
  · exact .refl s

theorem execAnswerSent_sameHands (s : State) : Answer.Leads (SameHands s) (execAnswerSent s) := by
  unfold execAnswerSent
  split
  · exact .refl s
  · exact .of_commons rfl rfl rfl rfl rfl rfl rfl rfl

/-! ## Every command and every step -/

/-- Whatever the command, the law of what the owners have in hand holds behind it. -/
theorem Hands.commandsLead (hs : Hands False none s) (hc : ClockLaw s) : CommandsLead (Hands False none) s := by
  have completed := hs.allCompleted.1
  have running := hs.allCompleted_run hc
  have same {a : Answer} (h : Answer.Leads (SameHands s) a) : Answer.Leads (Hands False none) a := h.mono fun _ => hs.same
  exact
    { stay := hs
      request := hs.runRequest
      absorption := fun _ => hs.absorbHead
      pulse := completed.takePulse running
      supervision := completed.expireSupervision running
      grace := completed.expireGrace running
      line := fun i level => completed.same (changeLine_sameHands i level _)
      debounce := fun i => completed.same (expireDebounce_sameHands i _)
      stop := fun _ _ => hs.beginStop.same (.of_fields rfl rfl rfl rfl rfl rfl rfl rfl)
      pins := fun _ _ => hs.same (.of_fields rfl rfl rfl rfl rfl rfl rfl rfl)
      stopped := hs.partStopped
      restart := fun _ => hands_of_reset rfl rfl rfl rfl rfl fun p => by cases p <;> rfl
      restartHeld := hands_of_reset rfl rfl rfl rfl rfl fun p => by cases p <;> rfl
      write := hs.portWrite
      handOver := completed.portWrite .a 0x6C
      read := hs.portRead
      receive := hs.receiveByte
      frameStart := same (execFrameStart_sameHands s)
      frameHeader := fun header => same (execFrameHeader_sameHands header s)
      frameEnd := hs.same (.of_commons rfl rfl rfl rfl rfl rfl rfl rfl)
      framingError := hs.same (.of_commons rfl rfl rfl rfl rfl rfl rfl rfl)
      rxdBreak := hs.same (.of_commons rfl rfl rfl rfl rfl rfl rfl rfl)
      breakEnd := hs.same (.of_commons rfl rfl rfl rfl rfl rfl rfl rfl)
      answerSent := same (execAnswerSent_sameHands s) }

theorem Hands.step (hs : Hands False none s) (hc : ClockLaw s) : Answer.Leads (Hands False none) (step s) := by
  refine step_leads (fun c l => ?_) (fun t h => hs.same (shiftPlainByte_sameHands h))
    (hs.same (.of_fields rfl rfl rfl rfl rfl rfl rfl rfl))
  have queued : Hands False none { s with pending := l } := hs.same (.of_fields rfl rfl rfl rfl rfl rfl rfl rfl)
  exact (queued.commandsLead hc).exec c

end

/-- Settles O60: the laws of the records and the ports follow each by itself; what the owners have in hand obeys its law
beside the clock's. -/
theorem stepKeepsStackAndPortLaws : Obligations.StepKeepsStackAndPortLaws := by
  intro s t hstep
  have follows := step_follows s
  rw [hstep] at follows
  refine ⟨follows.inputs, follows.allowances, follows.ports, fun hclock hhand => ?_⟩
  have hands := (handLaw_iff.mp hhand).step hclock
  rw [hstep] at hands
  exact handLaw_iff.mpr hands


end Sys2Proof.Machine
end

section
/-! SUPPORT. The Period Clock and the power interruption (04): what a boundary makes of the state in each case, the three clock
requests, the stop and the restart, the idle step, and the clock and queue laws through every step. -/

namespace Sys2Proof.Machine

/-! # Boundaries: what a pulse, a supervision expiry and a grace expiry make of the state (04 R71 to R76). -/

/-! ## The marks, the source and the minute in grace -/

theorem StackState.marks_eq (x : StackState) : x.marks = ⟨x != .off, x == .abnormal⟩ := by cases x <;> rfl

theorem freezeMarks_eq (s : State) : freezeMarks s = { s with inputs := frozenInputs s } := by
  simp only [freezeMarks, frozenInputs, StackState.marks_eq]

theorem startMarks_eq (s : State) : startMarks s = { s with inputs := restartedInputs s } := by
  simp only [startMarks, restartedInputs, StackState.marks_eq]

theorem collectMinute_now (m : MinuteStamp) (b : Bool) (s : State) : (collectMinute m b s).now = s.now :=
  (congrArg State.now (collectMinute_frame m b s) :)

/-- Under one and the same clock afterwards it does not matter which clock a collection finds. -/
theorem collectMinute_anyClock (m : MinuteStamp) (b : Bool) (c : Clock) {s t : State} (h : { s with clock := t.clock } = t) :
    { collectMinute m b s with clock := c } = { collectMinute m b t with clock := c } := by
  have collected : collectMinute m b t = { collectMinute m b s with clock := t.clock } := by
    rw [← collectMinute_withClock, h]
  rw [collected]

theorem setSource_self {src : TimeSource} {s : State} (h : s.clock.source = src) : setSource src s = s := by
  subst h
  rfl

theorem graceCollected_withClock (g : GraceMinute) (c : Clock) (s : State) :
    graceCollected g { s with clock := c } =
      { collectMinute g.stamp g.internal s with clock := { c with inGrace := none, graceTimer := none } } := by
  rw [graceCollected, collectMinute_withClock]

theorem graceCollected_setSource (g : GraceMinute) (src : TimeSource) (s : State) :
    graceCollected g (setSource src s) = setSource src (graceCollected g s) :=
  graceCollected_withClock ..

/-- Time and the change of source at a supervision expiry, with CLOCK_LOST on that change (04 R74). -/
theorem loseClock_advanceTo (e : Nat) (s : State) : loseClock (advanceTo e s) = sourceLost e s := by
  cases h : s.clock.source with
  | external =>
    simp only [loseClock, advanceTo, h, sourceLost, if_true]
    rfl
  | internal =>
    simp only [loseClock, advanceTo, h, sourceLost, reduceCtorEq, if_false]
    rw [← h]

/-! ## A boundary, case by case (04 R71, R76) -/

section
variable {s : State}

/-- A minute in grace is collected first. -/
theorem boundary_of_grace {g : GraceMinute} (hg : s.clock.inGrace = some g) (b : Bool) :
    boundary b s = boundary b (graceCollected g s) := by
  have none_left : collectGrace (graceCollected g s) = graceCollected g s := collectGrace_none rfl
  unfold boundary
  rw [collectGrace_some hg, none_left]

theorem boundary_of_none (hg : s.clock.inGrace = none) (hpos : s.clock.position ≠ lastMinute) (b : Bool) :
    boundary b s = restartSupervision b (startGrace b s) := by
  unfold boundary
  rw [collectGrace_none hg]
  exact if_neg hpos

/-- With a grace setting above 0 the ended minute goes into grace. -/
theorem boundary_opens (hpos : s.clock.position ≠ lastMinute) (hg : s.clock.inGrace = none)
    (hset : 0 < s.clock.graceSetting) (b : Bool) :
    boundary b s = { s with
      inputs := frozenInputs s
      clock := { s.clock with
        inGrace := some ⟨s.clock.position, b⟩
        position := s.clock.position.next
        graceTimer := some (s.now + s.clock.graceSetting)
        supervision := some (s.now + if b then 60 else 65)
        reference := some s.now } } := by
  rw [boundary_of_none hg hpos, startGrace, freezeMarks_eq]
  dsimp only
  rw [if_neg hset.ne']
  rfl

/-- With a grace setting of 0 the ended minute is collected at once. -/
theorem boundary_collects (hpos : s.clock.position ≠ lastMinute) (hg : s.clock.inGrace = none)
    (hset : s.clock.graceSetting = 0) (b : Bool) :
    boundary b s = { collectMinute s.clock.position b { s with inputs := frozenInputs s } with
      clock := { s.clock with
        position := s.clock.position.next
        graceTimer := none
        supervision := some (s.now + if b then 60 else 65)
        reference := some s.now } } := by
  have collected : startGrace b s = { collectMinute s.clock.position b { s with inputs := frozenInputs s } with
      clock := { s.clock with position := s.clock.position.next, graceTimer := none } } := by
    rw [startGrace, freezeMarks_eq]
    dsimp only
    rw [if_pos hset, collectGrace_some rfl]
    refine (graceCollected_withClock _ _ { s with inputs := frozenInputs s }).trans ?_
    simp only [hg]
  rw [boundary_of_none hg hpos, collected]
  simp only [restartSupervision, collectMinute_now]
  rfl

/-- In the last minute of the calendar range that minute is collected and the clock goes to HOLD. -/
theorem boundary_ends (hpos : s.clock.position = lastMinute) (hg : s.clock.inGrace = none) (b : Bool) :
    boundary b s = { collectMinute lastMinute b { s with inputs := frozenInputs s } with
      clock := { s.clock with
        state := .hold, saved := some lastMinute, rangeEnd := true, graceTimer := none, supervision := none } } := by
  unfold boundary
  rw [collectGrace_none hg]
  dsimp only
  rw [if_pos hpos, endOfRange, freezeMarks_eq, hpos]
  simp only [collectMinute_clock, hpos]

/-! ## Pulses and expiries (04 R72 to R74) -/

theorem earlyPulse_of_notEarly (h : NotEarly s) : earlyPulse s = false := by
  unfold earlyPulse
  split
  · next t ht => exact decide_eq_false (Nat.not_lt.mpr (h t ht))
  · rfl

theorem earlyPulse_of_lt {t : Nat} (ht : s.clock.reference = some t) (h : s.now < t + 30) : earlyPulse s = true := by
  simp only [earlyPulse, ht]
  exact decide_eq_true h

theorem takePulse_idle (h : s.clock.state ≠ .run) : takePulse s = s := if_pos h

/-- A pulse that is not early takes a boundary, and the source is EXTERNAL (04 R73). -/
theorem takePulse_boundary (hrun : s.clock.state = .run) (h : earlyPulse s = false) :
    takePulse s = boundary false (setSource .external s) := by
  unfold takePulse
  rw [if_neg (not_not.mpr hrun), h]
  cases hsrc : s.clock.source with
  | external => rw [setSource_self hsrc]
  | internal => rfl

theorem takePulse_early_external (hrun : s.clock.state = .run) (h : earlyPulse s = true)
    (hsrc : s.clock.source = .external) : takePulse s = s := by
  unfold takePulse
  rw [if_neg (not_not.mpr hrun), h, hsrc]

theorem takePulse_early_internal (hrun : s.clock.state = .run) (h : earlyPulse s = true)
    (hsrc : s.clock.source = .internal) : takePulse s = returningPulse s := by
  unfold takePulse
  rw [if_neg (not_not.mpr hrun), h, hsrc]

/-- A pulse finds the minute in grace collected. -/
theorem takePulse_of_grace {g : GraceMinute} (hrun : s.clock.state = .run) (h : NotEarly s)
    (hg : s.clock.inGrace = some g) : takePulse s = takePulse (graceCollected g s) := by
  have later : NotEarly (graceCollected g s) := fun t ht => by
    show t + 30 ≤ (collectMinute g.stamp g.internal s).now
    rw [collectMinute_now]
    exact h t ht
  have external : (setSource .external s).clock.inGrace = some g := hg
  rw [takePulse_boundary hrun (earlyPulse_of_notEarly h),
    takePulse_boundary (s := graceCollected g s) hrun (earlyPulse_of_notEarly later), boundary_of_grace external,
    graceCollected_setSource]

theorem expireSupervision_eq {e : Nat} (hrun : s.clock.state = .run) (he : s.clock.supervision = some e) :
    expireSupervision s = boundary true (sourceLost e s) := by
  unfold expireSupervision
  rw [hrun, he, ← loseClock_advanceTo]

/-- Behind the change of the source and the collection of the minute in grace, the same expiry takes the boundary. -/
theorem expireSupervision_of_grace {e : Nat} {g : GraceMinute} (hrun : s.clock.state = .run)
    (he : s.clock.supervision = some e) (hg : s.clock.inGrace = some g) :
    expireSupervision s = expireSupervision (graceCollected g (sourceLost e s)) := by
  have lost_again : sourceLost e (graceCollected g (sourceLost e s)) = graceCollected g (sourceLost e s) := by
    have time : max (graceCollected g (sourceLost e s)).now e = (graceCollected g (sourceLost e s)).now := by
      have now : (graceCollected g (sourceLost e s)).now = max s.now e := collectMinute_now ..
      rw [now, Nat.max_assoc, Nat.max_self]
    unfold sourceLost at time ⊢
    rw [time]
    rfl
  have lost : (sourceLost e s).clock.inGrace = some g := hg
  rw [expireSupervision_eq hrun he, expireSupervision_eq (s := graceCollected g (sourceLost e s)) hrun he, lost_again,
    boundary_of_grace lost]

theorem expireGrace_eq {e : Nat} {g : GraceMinute} (hrun : s.clock.state = .run) (he : s.clock.graceTimer = some e)
    (hg : s.clock.inGrace = some g) : expireGrace s = graceCollected g { s with now := max s.now e } := by
  have advanced : (advanceTo e s).clock.inGrace = some g := hg
  unfold expireGrace
  rw [hrun, he]
  exact collectGrace_some advanced

end

/-! ## What is in hand behind a collection (07 R116) -/

section
variable {b : Prop} {s t : State}

/-- Without a request in hand only the queue head may be taken up behind a collection, since nothing waits at an idle engine. -/
theorem NoneInHand.takeUp_engine (hnone : NoneInHand s)
    (hwait : s.part = .running → ∀ p, (waitingAt s .engine p).isSome → s.inFlight = some .entry) :
    NoneInHand (takeUp .engine s) := by
  intro o
  by_cases hocc : Occupied s .engine
  · rw [takeUp_occupied hocc]
    exact hnone o
  by_cases ho : o = .engine
  · subst ho
    rw [inHand_takeUp_self]
    cases hp : nextPort s .engine with
    | none => rfl
    | some p =>
      obtain ⟨hrun, hw⟩ := nextPort_waits hocc hp
      exact absurd (fun hfree => by rw [hwait hrun p hw] at hfree; cases hfree) hocc
  · rw [inHand_takeUp_ne ho]
    exact hnone o

theorem NoneInHand.same (hnone : NoneInHand s) (h : SameHands s t) : NoneInHand t := fun o =>
  (h.inHand o).trans (hnone o)

theorem NoneInHand.closeHalfHour (hnone : NoneInHand s) (hs : Hands b none s) (h : HalfHourStamp) :
    NoneInHand (closeHalfHour h s) := by
  have restarted (t : State) : SameHands t (raiseEvent .halfHourClosed h.hh (restartHalfHour t)) :=
    .of_fields rfl rfl rfl rfl rfl rfl rfl rfl
  have taken : NoneInHand (offerBatch h (batch s h) s) := by
    unfold offerBatch
    rw [queueBatch_frame]
    exact NoneInHand.takeUp_engine hnone fun hrun p hw => (hs.taken hrun .engine p nofun (hnone .engine) hw).2
  exact taken.same (restarted _)

theorem NoneInHand.collectMinute (hnone : NoneInHand s) (hs : Hands b none s) (m : MinuteStamp) (i : Bool) :
    NoneInHand (collectMinute m i s) := by
  have records : SameHands s (collectRecords m i s) := .of_fields rfl rfl rfl rfl rfl rfl rfl rfl
  have raised (c : ChannelNo) : SameHands s (raiseEvent .minuteIncomplete c (collectRecords m i s)) :=
    records.trans (.of_fields rfl rfl rfl rfl rfl rfl rfl rfl)
  unfold Machine.collectMinute
  dsimp only
  split
  · split
    · exact (hnone.same (raised _)).closeHalfHour (hs.same (raised _)) _
    · exact (hnone.same records).closeHalfHour (hs.same records) _
  · split
    · exact hnone.same (raised _)
    · exact hnone.same records

theorem NoneInHand.graceCollected (hnone : NoneInHand s) (hs : HandLaw s) (g : GraceMinute) :
    NoneInHand (graceCollected g s) :=
  (hnone.collectMinute (handLaw_iff.mp hs) g.stamp g.internal).same (.of_fields rfl rfl rfl rfl rfl rfl rfl rfl)

/-! ## The rows of pulses and expiries, with no request in hand -/

theorem exec_minpPulse (hnone : NoneInHand s) : exec .minpPulse s = .next (takePulse s) :=
  congrArg (fun t => Host.Outcome.next (takePulse t)) (completeAll_none hnone)

theorem exec_supervisionExpiry (hnone : NoneInHand s) : exec .supervisionExpiry s = .next (expireSupervision s) :=
  congrArg (fun t => Host.Outcome.next (expireSupervision t)) (completeAll_none hnone)

theorem exec_graceExpiry (hnone : NoneInHand s) : exec .graceExpiry s = .next (expireGrace s) :=
  congrArg (fun t => Host.Outcome.next (expireGrace t)) (completeAll_none hnone)

end

/-! ## The statements on boundaries -/

/-- Settles O5: a pulse that is not early takes a boundary with the source EXTERNAL, case by case; an early one does not. -/
theorem minutePulseTakenBySource : Obligations.MinutePulseTakenBySource := by
  refine ⟨fun s hnone hrun hlate => ⟨fun g hg hhand => ?grace, fun hpos hg hset => ?opens, fun hpos hg hset => ?collects⟩,
    fun s hnone hrun => ?idle, fun s t hnone hrun ht hlt => ⟨fun hsrc => ?external, fun hsrc => ?internal⟩⟩
  case grace =>
    rw [exec_minpPulse hnone, exec_minpPulse (hnone.graceCollected hhand g), takePulse_of_grace hrun hlate hg]
  case opens =>
    rw [exec_minpPulse hnone, takePulse_boundary hrun (earlyPulse_of_notEarly hlate),
      boundary_opens (s := setSource .external s) hpos hg hset]
    rfl
  case collects =>
    rw [exec_minpPulse hnone, takePulse_boundary hrun (earlyPulse_of_notEarly hlate),
      boundary_collects (s := setSource .external s) hpos hg hset]
    exact congrArg _ (collectMinute_anyClock _ _ _ rfl)
  case idle =>
    rw [exec_minpPulse hnone, takePulse_idle hrun]
  case external =>
    rw [exec_minpPulse hnone, takePulse_early_external hrun (earlyPulse_of_lt ht hlt) hsrc]
  case internal =>
    rw [exec_minpPulse hnone, takePulse_early_internal hrun (earlyPulse_of_lt ht hlt) hsrc]
    rfl

/-- Settles O6: the expiry takes a boundary with the internal flag behind the change of the source, case by case; a grace
expiry is the collection of the minute in grace. -/
theorem clockTimersExpire : Obligations.ClockTimersExpire := by
  refine ⟨fun s e hnone hrun he => ⟨fun g hg hhand => ?grace, fun hpos hg hset => ?opens, fun hpos hg hset => ?collects⟩,
    fun s g e hnone hrun hg he => ?expiry⟩
  case grace =>
    have lost : SameHands s (sourceLost e s) := .of_fields rfl rfl rfl rfl rfl rfl rfl rfl
    have hands : HandLaw (sourceLost e s) := handLaw_iff.mpr ((handLaw_iff.mp hhand).same lost)
    rw [exec_supervisionExpiry hnone, exec_supervisionExpiry ((hnone.same lost).graceCollected hands g),
      expireSupervision_of_grace hrun he hg]
  case opens =>
    rw [exec_supervisionExpiry hnone, expireSupervision_eq hrun he, boundary_opens (s := sourceLost e s) hpos hg hset]
    rfl
  case collects =>
    rw [exec_supervisionExpiry hnone, expireSupervision_eq hrun he, boundary_collects (s := sourceLost e s) hpos hg hset]
    rfl
  case expiry =>
    rw [exec_graceExpiry hnone, expireGrace_eq hrun he hg]

/-- Settles O7: the boundary at the end of the range, by a pulse and by a supervision expiry. -/
theorem endOfRangeHolds : Obligations.EndOfRangeHolds := by
  intro s hnone hrun hpos hg
  refine ⟨fun hlate => ?pulse, fun e he => ?expiry⟩
  case pulse =>
    rw [exec_minpPulse hnone, takePulse_boundary hrun (earlyPulse_of_notEarly hlate),
      boundary_ends (s := setSource .external s) hpos hg]
    exact congrArg _ (collectMinute_anyClock _ _ _ rfl)
  case expiry =>
    rw [exec_supervisionExpiry hnone, expireSupervision_eq hrun he, boundary_ends (s := sourceLost e s) hpos hg]
    rfl

/-! # The three requests of the Period Clock (04 R78 to R80, R84, R85): what each answers. -/

/-! ## SET_GRACE (04 R78) -/

/-- Settles O8: by the range of the argument. -/
theorem setGraceStoresSetting : Obligations.SetGraceStoresSetting := by
  intro s p r h
  refine ⟨fun g hle harg => h.done ?stored, fun hno => h.refused ?range⟩
  case stored =>
    simp only [performRequest, performSetGrace, natArg_some harg (Nat.zero_le g) hle]
  case range =>
    simp only [performRequest, performSetGrace, natArg_none fun v _ hv => hno v hv]

/-! ## Calendar minutes (04 R79, R84) -/

theorem calendarMinute_iff {y d m : Int} :
    calendarMinute y d m = true ↔
      2000 ≤ y ∧ y ≤ 2199 ∧ 1 ≤ d ∧ d ≤ daysInYear y.toNat ∧ 0 ≤ m ∧ m ≤ 1439 := by
  simp only [calendarMinute, Bool.and_eq_true, decide_eq_true_eq, and_assoc]

/-- Arguments 1 to 3 are a calendar minute exactly when they are its three numbers, each in range. -/
theorem minuteArg_iff {r : Request} {x : MinuteStamp} :
    minuteArg r = some x ↔
      r.arg 1 = some (x.year : Int) ∧ r.arg 2 = some (x.day : Int) ∧ r.arg 3 = some (x.minute : Int) ∧
      2000 ≤ x.year ∧ x.year ≤ 2199 ∧ 1 ≤ x.day ∧ x.day ≤ daysInYear x.year ∧ x.minute ≤ 1439 := by
  constructor
  · intro h
    unfold minuteArg at h
    split at h
    · next y d m hy hd hm =>
      split at h
      · next hcal =>
        cases h
        obtain ⟨hy1, hy2, hd1, hd2, hm1, hm2⟩ := calendarMinute_iff.mp hcal
        rw [hy, hd, hm]
        dsimp only
        generalize daysInYear y.toNat = n at hd2
        refine ⟨congrArg some ?_, congrArg some ?_, congrArg some ?_, ?_, ?_, ?_, ?_, ?_⟩ <;> omega
      · cases h
    · cases h
  · rintro ⟨hy, hd, hm, hy1, hy2, hd1, hd2, hm2⟩
    have cal : calendarMinute x.year x.day x.minute = true :=
      calendarMinute_iff.mpr ⟨by omega, by omega, by omega, Int.ofNat_le.mpr hd2, by omega, by omega⟩
    simp only [minuteArg, hy, hd, hm, if_pos cal, Int.toNat_natCast]

/-! ## SET_CALENDAR (04 R79, R80) -/

section
variable {r : Request} {s : State}

/-- No account in service: every account FREE or DRAFT (04 R79). -/
theorem noneInService_iff :
    anyOf (fun i => (s.account i).inService) = false ↔
      ∀ i, (s.account i).state = .free ∨ (s.account i).state = .draft := by
  rw [anyOf_false_iff]
  refine forall_congr' fun i => ?_
  cases h : (s.account i).state <;> simp [Account.inService, h]

theorem performSetCalendar_argument (h : minuteArg r = none) : performSetCalendar r s = .refused .argument := by
  simp only [performSetCalendar, h]

theorem performSetCalendar_inUse {x : MinuteStamp} (h : minuteArg r = some x)
    (hserv : anyOf (fun i => (s.account i).inService) = true) : performSetCalendar r s = .refused .inUse := by
  simp only [performSetCalendar, h, hserv, if_true]

theorem performSetCalendar_backlog {x : MinuteStamp} (h : minuteArg r = some x)
    (hserv : ∀ i, (s.account i).state = .free ∨ (s.account i).state = .draft) (hq : s.queue ≠ []) :
    performSetCalendar r s = .refused .backlog := by
  simp [performSetCalendar, h, noneInService_iff.mpr hserv, hq]

theorem performSetCalendar_done {x : MinuteStamp} (h : minuteArg r = some x)
    (hserv : ∀ i, (s.account i).state = .free ∨ (s.account i).state = .draft) (hq : s.queue = []) :
    performSetCalendar r s = .done [num s.clock.state.number] (stateCalendar x s) := by
  simp [performSetCalendar, h, noneInService_iff.mpr hserv, hq]

theorem stateCalendar_eq (x : MinuteStamp) (s : State) :
    stateCalendar x s = { s with
      clock := { s.clock with
        state := .run, position := x, calendarSet := true, rangeEnd := false, saved := some x, source := .external
        inGrace := none, graceTimer := none, supervision := some (s.now + 65), reference := none }
      slots := tabulate (fun c => ⟨(s.slotPair c).x.discardCalendar, (s.slotPair c).y.discardCalendar⟩)
      accumulators := Vector.replicate 48 .empty
      counts := Vector.replicate 4 ⟨0, 0⟩
      inputs := restartedInputs s } := by
  rw [stateCalendar, startMarks_eq]
  rfl

end

/-- Settles O9: the checks in order, and the changes behind them. -/
theorem setCalendarStatesPosition : Obligations.SetCalendarStatesPosition := by
  intro s p r h
  refine ⟨fun y d m hy hd hm hy1 hy2 hd1 hd2 hm2 hserv hq => ?done, fun hnone => h.refused (performSetCalendar_argument hnone),
    fun i x hx hi => h.refused (performSetCalendar_inUse hx ?_),
    fun x hx hserv hq => h.refused (performSetCalendar_backlog hx hserv hq), fun x => minuteArg_iff⟩
  case done =>
    have minute : minuteArg r = some ⟨y, d, m⟩ := minuteArg_iff.mpr ⟨hy, hd, hm, hy1, hy2, hd1, hd2, hm2⟩
    have done := performSetCalendar_done minute hserv hq
    rw [stateCalendar_eq] at done
    exact h.done done
  · refine anyOf_true_iff.mpr ⟨i, ?_⟩
    rcases hi with hi | hi | hi <;> simp [Account.inService, hi]

/-! ## RESUME (04 R84, R85) -/

section
variable {r : Request} {s : State} {P S : MinuteStamp}

theorem performResume_state (h : s.clock.state ≠ .hold) : performResume r s = .refused .state := if_pos h

theorem performResume_noMinute (h : s.clock.state = .hold) (hr : minuteArg r = none) :
    performResume r s = .refused .argument := by
  simp only [performResume, h, ne_eq, not_true_eq_false, if_false, hr]

theorem performResume_rangeEnd (h : s.clock.state = .hold) (hend : s.clock.rangeEnd = true) :
    performResume r s = .refused .argument := by
  unfold performResume
  rw [if_neg (not_not.mpr h), hend]
  split <;> rfl

/-- In HOLD with a calendar minute P and a saved position S: what is left of the checks, and the effect. -/
theorem performResume_hold (h : s.clock.state = .hold) (hP : minuteArg r = some P) (hS : s.clock.saved = some S) :
    performResume r s =
      if s.clock.rangeEnd then .refused .argument
      else if P.before S then .refused .argument
      else if 65535 < P.halfHour.count - S.halfHour.count then .refused .argument
      else .done [num ((P.halfHour.count - S.halfHour.count : Nat) : Int), S.word]
        (resumeAt P (if P.halfHour.count - S.halfHour.count = 0 then s
          else takeUp .engine (appendGap S.halfHour (P.halfHour.count - S.halfHour.count) s))) := by
  unfold performResume
  rw [if_neg (not_not.mpr h), hP, hS]
  rfl

theorem performResume_far (h : s.clock.state = .hold) (hP : minuteArg r = some P) (hS : s.clock.saved = some S)
    (hfar : P.before S = true ∨ 65535 < P.halfHour.count - S.halfHour.count) :
    performResume r s = .refused .argument := by
  rw [performResume_hold h hP hS]
  split
  · rfl
  · split
    · rfl
    · next hafter => rw [if_pos (hfar.resolve_left hafter)]

theorem performResume_passes (h : s.clock.state = .hold) (hend : s.clock.rangeEnd = false) (hP : minuteArg r = some P)
    (hS : s.clock.saved = some S) (hafter : P.before S = false)
    (hgap : P.halfHour.count - S.halfHour.count ≤ 65535) :
    performResume r s = .done [num ((P.halfHour.count - S.halfHour.count : Nat) : Int), S.word]
      (resumeAt P (if P.halfHour.count - S.halfHour.count = 0 then s
        else takeUp .engine (appendGap S.halfHour (P.halfHour.count - S.halfHour.count) s))) := by
  rw [performResume_hold h hP hS, hend, hafter, if_neg (Nat.not_lt.mpr hgap)]
  rfl

theorem resumeAt_eq (x : MinuteStamp) (s : State) :
    resumeAt x s = { s with
      clock := { s.clock with
        state := .run, position := x, source := .external, inGrace := none, graceTimer := none
        supervision := some (s.now + 65), reference := none }
      slots := tabulate (fun c => ⟨{ (s.slotPair c).x with loaded := false }, { (s.slotPair c).y with loaded := false }⟩)
      accumulators :=
        Vector.replicate 48 { Accumulator.empty with operating := x.minute % 30, missing := x.minute % 30 }
      counts := Vector.replicate 4 ⟨0, 0⟩
      inputs := restartedInputs s } := by
  have minutes : x.minute - 30 * (x.minute / 30) = x.minute % 30 := by omega
  rw [resumeAt, startMarks_eq, minutes]
  rfl

/-- The engine takes the outage gap whether the clock is in RUN already or not. -/
theorem resumeAt_takeUp (x : MinuteStamp) (s : State) : resumeAt x (takeUp .engine s) = takeUp .engine (resumeAt x s) := rfl

end

/-- Settles O10: the refusals in order; behind them the clock enters RUN, with the outage gap where there is one. -/
theorem resumeEntersRun : Obligations.ResumeEntersRun := by
  refine ⟨fun s p r h => ⟨fun hstate => h.refused (performResume_state hstate), fun hhold harg => h.refused ?argument,
    fun P S hhold hP hS hfar => h.refused (performResume_far hhold hP hS hfar)⟩,
    fun s p r P S h hhold hend hS hP hafter hgap => ?done⟩
  case argument =>
    rcases harg with hnone | hend
    · exact performResume_noMinute hhold hnone
    · exact performResume_rangeEnd hhold hend
  case done =>
    have done := h.done (performResume_passes hhold hend hP hS hafter hgap)
    dsimp only
    rw [show Instr.resume = requestRow .resume from rfl, done]
    split
    · rw [resumeAt_eq]
      rfl
    · rw [resumeAt_takeUp, resumeAt_eq]
      rfl

/-! # Power interruption (04 R81 to R83, 06 R112): the stop, its end, the restart and power-on. -/

/-! ## The start of the stop -/

section
variable {s : State}

theorem exec_supplyLow (s : State) : exec .supplyLow s = .next { beginStop s with supplyGood := false } := rfl

theorem exec_rstnLow (s : State) : exec .rstnLow s = .next { beginStop s with rstnHigh := false } := rfl

theorem beginStop_running (h : s.part = .running) :
    beginStop s = stopBlocks (completeAll { s with part := .stopping }) := if_pos h

/-- A cause that arrives during a stop joins it. -/
theorem beginStop_joins (h : s.part ≠ .running) : beginStop s = s := if_neg h

theorem answer_part (c : RequestCode) (p : Port) (r : Request) (s : State) :
    (answer p r.code (performRequest c r s) s).part = s.part :=
  (congrArg State.part (answer_kept c p r s) :)

theorem withPart_self {part : PartPhase} (h : s.part = part) : { s with part := part } = s := by
  subst h
  rfl

theorem completeFirst_of_order {o : Owner} {rest : List Owner} (h : s.handOrder = o :: rest) :
    completeFirst s = completeInHand o s := by
  unfold completeFirst
  rw [h]

/-- The request in hand that was taken first is the first that the start of the stop completes. -/
theorem beginStop_first {o : Owner} {rest : List Owner} {p : Port} {c : RequestCode} {r : Request}
    (hpart : s.part = .running) (horder : s.handOrder = o :: rest) (hhand : inHand s o = some p)
    (hwait : waitingAt s o p = some r) (hcode : r.code = c.byte) :
    beginStop s = beginStop
      { finish o (answer p r.code (performRequest c r { s with part := .stopping }) { s with part := .stopping }) with
        part := .running } := by
  have howner : c.owner = o := owner_of_waiting hwait hcode
  have first : completeFirst { s with part := .stopping } =
      finish o (answer p r.code (performRequest c r { s with part := .stopping }) { s with part := .stopping }) := by
    subst howner
    refine (completeFirst_of_order (s := { s with part := .stopping }) horder).trans ?_
    exact completeInHand_eq (s := { s with part := .stopping }) ((inHand_congr rfl rfl rfl _).trans hhand) hwait hcode
  have stopping : (completeFirst { s with part := .stopping }).part = .stopping := by
    rw [first, finish_part, answer_part]
  rw [← first, beginStop_running hpart, beginStop_running rfl]
  exact congrArg stopBlocks
    ((completeFirst_thrice _).symm.trans (congrArg completeAll (withPart_self stopping).symm))

/-- With no request in hand the stop begins with the clock. -/
theorem beginStop_of_none (hpart : s.part = .running) (hnone : NoneInHand s) :
    beginStop s = stopBlocks { s with part := .stopping } := by
  have none_stopping : NoneInHand { s with part := .stopping } := fun o => (inHand_congr rfl rfl rfl o).trans (hnone o)
  rw [beginStop_running hpart, completeAll_none none_stopping]

/-- In RUN a minute in grace is collected before the clock stops. -/
theorem stopBlocks_of_grace {g : GraceMinute} (hrun : s.clock.state = .run) (hg : s.clock.inGrace = some g) :
    stopBlocks s = takeUp .engine (stopClock (graceCollected g s)) := by
  rw [stopBlocks, if_pos hrun, collectGrace_some hg]

theorem stopBlocks_of_none (hg : s.clock.state = .run → s.clock.inGrace = none) :
    stopBlocks s = takeUp .engine (stopClock s) := by
  unfold stopBlocks
  split
  · next hrun => rw [collectGrace_none (hg hrun)]
  · rfl

end

/-- Settles O18: the first request in hand, the start of the stop with none in hand, and the pins and the end of the stop. -/
theorem stopBeginsAndEnds : Obligations.StopBeginsAndEnds := by
  refine ⟨fun s hpart => ⟨fun o rest p c r horder hhand hwait hcode => ?first, fun t hnone ht => ?stops⟩,
    fun s => ⟨fun hpart => ?joins, fun hpart hq => if_pos ⟨hpart, hq⟩, fun hq => if_neg fun h => hq h.2, rfl, rfl⟩⟩
  case first =>
    dsimp only
    rw [exec_supplyLow s, exec_rstnLow s, beginStop_first hpart horder hhand hwait hcode]
    exact ⟨rfl, rfl⟩
  case stops =>
    dsimp only
    rw [exec_supplyLow s, exec_rstnLow s, beginStop_of_none hpart hnone]
    rcases ht with ⟨g, hrun, hg, rfl⟩ | ⟨hg, rfl⟩
    · rw [stopBlocks_of_grace (s := { s with part := .stopping }) hrun hg]
      exact ⟨rfl, rfl⟩
    · rw [stopBlocks_of_none (s := { s with part := .stopping }) hg]
      exact ⟨rfl, rfl⟩
  case joins =>
    rw [exec_supplyLow, exec_rstnLow, beginStop_joins hpart]
    exact ⟨rfl, rfl⟩

/-! ## The restart and power-on -/

theorem StackInput.restarted_eq (r : StackInput) (now : Nat) (line : Bool) :
    r.restarted now line =
      { enable := r.enable, debounce := r.debounce, takenOn := false, state := .off, declaration := none
        openMarks := ⟨false, false⟩, frozen := none
        timer := if r.enable = true ∧ line = true then some (now + r.debounce) else none } := by
  simp only [StackInput.restarted, StackInput.reset, Bool.and_eq_true]

/-- Settles O19: both rows reset the volatile state; only what the restart waits for differs. -/
theorem restartResetsVolatileState : Obligations.RestartResetsVolatileState := by
  intro s
  dsimp only
  simp only [← StackInput.restarted_eq]
  refine ⟨fun hpart hgood hhigh => ?restart, fun hwaits => if_neg fun ⟨hpart, hgood, hhigh⟩ => ?waits, fun hhigh => ?power⟩
  case restart =>
    exact if_pos ⟨hpart, hgood, hhigh⟩
  case waits =>
    rcases hwaits with h | h | h
    · exact h hpart
    · exact absurd (hgood.symm.trans h) nofun
    · exact absurd (hhigh.symm.trans h) nofun
  case power =>
    exact if_pos hhigh

/-! # No command waiting (04 R71, R72, R74, 03 R51, 12 R183; assumptions 2, 3 and 10). -/

section
variable {s : State}

theorem due_some {now e : Nat} : due now (some e) = true ↔ e ≤ now := decide_eq_true_iff

theorem due_eq_false {now : Nat} {timer : Option Nat} (h : ∀ e, timer = some e → now < e) : due now timer = false := by
  cases timer with
  | none => rfl
  | some e => exact decide_eq_false (Nat.not_le.mpr (h e rfl))

theorem debounceDue_eq_false {i : StackNo} (h : ∀ e, (s.input i).timer = some e → s.now < e) : debounceDue s i = false := by
  rw [debounceDue, due_eq_false h, Bool.and_false]

theorem debounceDue_of_le {i : StackNo} {e : Nat} (hp : s.part ≠ .stopped) (ht : (s.input i).timer = some e)
    (he : e ≤ s.now) : debounceDue s i = true := by
  rw [debounceDue, ht, due_some.mpr he, bne_iff_ne.mpr hp]
  rfl

theorem dueCommand_grace {e : Nat} (hrun : s.clock.state = .run) (ht : s.clock.graceTimer = some e) (he : e ≤ s.now) :
    dueCommand s = some .graceExpiry := by
  have hdue : due s.now s.clock.graceTimer = true := ht ▸ due_some.mpr he
  exact if_pos ⟨hrun, hdue⟩

/-- With no grace timer due the debounce timers come next, the lowest stack first. -/
theorem dueCommand_debounce {i : StackNo} (hg : ∀ e, s.clock.graceTimer = some e → s.now < e)
    (hi : lowest (debounceDue s) = some i) : dueCommand s = some (.debounceExpiry i) := by
  unfold dueCommand
  rw [due_eq_false hg, hi]
  exact if_neg fun h => absurd h.2 nofun

/-- With no debounce timer due either the supervision timer comes last. -/
theorem dueCommand_of_noDebounce (hg : ∀ e, s.clock.graceTimer = some e → s.now < e)
    (hi : ∀ i e, (s.input i).timer = some e → s.now < e) :
    dueCommand s = if s.clock.state = .run ∧ due s.now s.clock.supervision then some .supervisionExpiry else none := by
  unfold dueCommand
  rw [due_eq_false hg, lowest_none fun i => debounceDue_eq_false (hi i)]
  exact if_neg fun h => absurd h.2 nofun

theorem dueCommand_none (hg : ∀ e, s.clock.graceTimer = some e → s.now < e)
    (hi : ∀ i e, (s.input i).timer = some e → s.now < e) (hv : ∀ e, s.clock.supervision = some e → s.now < e) :
    dueCommand s = none := by
  rw [dueCommand_of_noDebounce hg hi, due_eq_false hv]
  exact if_neg fun h => absurd h.2 nofun

/-- A location stays where a read frame looks for the next read with an effect exactly when its own read has one. -/
theorem nextEffectLoc_self_iff (loc : Loc) : nextEffectLoc loc = loc ↔ loc ∈ effectLocs := by
  revert loc
  decide

theorem nextLoc_plain {loc : Loc} (h : loc ∉ effectLocs) : nextLoc loc = loc + 1 := by
  revert loc
  decide

theorem step_idle (hpending : s.pending = []) : step s = idle s := by
  unfold step
  rw [hpending]

theorem step_due {c : Instr} (hpending : s.pending = []) (h : dueCommand s = some c) : step s = exec c s := by
  rw [step_idle hpending, idle, h]

theorem step_shifts {t : State} (hpending : s.pending = []) (h : dueCommand s = none) (ht : shiftPlainByte s = some t) :
    step s = .next t := by
  rw [step_idle hpending, idle, h, ht]

theorem step_second (hpending : s.pending = []) (h : dueCommand s = none) (ht : shiftPlainByte s = none) :
    step s = .next { s with now := s.now + 1 } := by
  rw [step_idle hpending, idle, h, ht]

theorem shiftPlainByte_none (h : ∀ loc, s.portA.frame = some (.data true loc) → loc ∈ effectLocs) :
    shiftPlainByte s = none := by
  unfold shiftPlainByte
  split
  · next loc hf => exact if_pos ((nextEffectLoc_self_iff loc).mpr (h loc hf))
  all_goals rfl

theorem shiftPlainByte_some {loc : Loc} (hf : s.portA.frame = some (.data true loc)) (h : loc ∉ effectLocs) :
    shiftPlainByte s = some { s with
      portA := { s.portA with frame := some (.data true (loc + 1)), miso := some (windowRead .a loc s).1 } } := by
  unfold shiftPlainByte
  rw [hf]
  dsimp only
  rw [if_neg (mt (nextEffectLoc_self_iff loc).mp h), moveFrame, nextLoc_plain h]

end

/-- Settles O2: by the timer that is due, and with none due by the location of the read frame. -/
theorem emptyQueueLetsTimePass : Obligations.EmptyQueueLetsTimePass := by
  intro s hpending
  dsimp only
  refine ⟨fun ⟨hg, hv, hi⟩ hframe => ?second, fun loc ⟨hg, hv, hi⟩ hf hloc => ?shift, fun e hrun hg he => ?grace,
    fun i e hg hp ht he hlow => ?debounce, fun e hg hi hrun hv he => ?supervision⟩
  case second =>
    exact step_second hpending (dueCommand_none hg hi hv) (shiftPlainByte_none hframe)
  case shift =>
    exact step_shifts hpending (dueCommand_none hg hi hv) (shiftPlainByte_some hf hloc)
  case grace =>
    exact step_due hpending (dueCommand_grace hrun hg he)
  case debounce =>
    have first : lowest (debounceDue s) = some i :=
      find_lowest (debounceDue_of_le hp ht he) fun j hj => debounceDue_eq_false (hlow j hj)
    exact step_due hpending (dueCommand_debounce hg first)
  case supervision =>
    have hdue : due s.now s.clock.supervision = true := hv ▸ due_some.mpr he
    exact step_due hpending ((dueCommand_of_noDebounce hg hi).trans (if_pos ⟨hrun, hdue⟩))

/-! # The clock and queue laws (04 R69, R70, R81, 06 R103, R106, R109): the record, the queue, and every command. -/

/-! ## The laws within a command -/

/-- The clock record by itself (04 R69, R70). -/
structure Clock.Lawful (c : Clock) : Prop where
  grace : c.inGrace.isSome ↔ c.graceTimer.isSome
  graceRun : c.inGrace.isSome → c.state = .run
  supervised : c.supervision.isSome ↔ c.state = .run
  calendar : c.state = .run ∨ c.state = .hold → c.calendarSet = true
  saved : c.calendarSet = true → c.saved.isSome
  setting : c.graceSetting ≤ 30

/-- A queue within its capacity, full only behind a gap entry (06 R103, R106). -/
structure QueueFits (q : List Entry) : Prop where
  length : q.length ≤ Config.queueCapacity
  full : q.length = Config.queueCapacity → ∃ g, q.getLast? = some (.gap g)

/-- The two laws as they stand within a command: where the stop is beginning, the clock of a stopping part has yet to stop. -/
structure Clocked (beginning : Prop) (s : State) : Prop where
  phase : s.clock.state = .stopped ↔ ¬ (s.part = .running ∨ beginning ∧ s.part = .stopping)
  record : s.clock.Lawful
  fits : QueueFits s.queue
  held : s.clock.state = .hold → s.clock.rangeEnd = false → s.queue = []

/-- Between commands they are the laws of the clock and of the queue. -/
theorem clocked_iff {s : State} : Clocked False s ↔ ClockLaw s ∧ QueueLaw s := by
  have phase : (¬ (s.part = .running ∨ False ∧ s.part = .stopping)) ↔ s.part ≠ .running := by simp
  constructor
  · intro hs
    obtain ⟨hgrace, hrun, hsup, hcal, hsaved, hset⟩ := hs.record
    exact ⟨⟨hs.phase.trans phase, hgrace, hrun, hsup, hcal, hsaved, hset⟩, hs.fits.length, hs.fits.full, hs.held⟩
  · rintro ⟨⟨hphase, hgrace, hrun, hsup, hcal, hsaved, hset⟩, hlen, hfull, hheld⟩
    exact ⟨hphase.trans phase.symm, ⟨hgrace, hrun, hsup, hcal, hsaved, hset⟩, ⟨hlen, hfull⟩, hheld⟩

section
variable {b : Prop} {s t : State}

/-- What the laws read is as it was. -/
theorem Clocked.same (hs : Clocked b s) (hclock : t.clock = s.clock) (hpart : t.part = s.part)
    (hqueue : t.queue = s.queue) : Clocked b t where
  phase := by
    rw [hclock, hpart]
    exact hs.phase
  record := by
    rw [hclock]
    exact hs.record
  fits := by
    rw [hqueue]
    exact hs.fits
  held := by
    rw [hclock, hqueue]
    exact hs.held

theorem Clocked.not_stopped (hs : Clocked b s) (hlive : s.part = .running ∨ b ∧ s.part = .stopping) :
    s.clock.state ≠ .stopped := fun h => hs.phase.mp h hlive

/-- A lawful clock in RUN with a queue that fits, where the clock had not stopped. -/
theorem Clocked.inRun (hs : Clocked b s) (hlive : s.clock.state ≠ .stopped) (hpart : t.part = s.part)
    (hrun : t.clock.state = .run) (hrecord : t.clock.Lawful) (hfits : QueueFits t.queue) : Clocked b t where
  phase := by
    have live := not_not.mp (mt hs.phase.mpr hlive)
    rw [hrun, hpart]
    exact iff_of_false nofun (not_not.mpr live)
  record := hrecord
  fits := hfits
  held := fun hhold => absurd (hrun.symm.trans hhold) nofun

theorem run_not_stopped (hrun : s.clock.state = .run) : s.clock.state ≠ .stopped := by
  rw [hrun]
  nofun

/-! ## The queue (06 R103 to R109) -/

/-- A queue that is not full fits, whatever its last entry is. -/
theorem QueueFits.of_lt {q : List Entry} (h : q.length < Config.queueCapacity) : QueueFits q :=
  ⟨h.le, fun hfull => absurd hfull h.ne⟩

/-- A queue whose last entry is a gap entry fits within the capacity. -/
theorem QueueFits.of_gap {q : List Entry} (g : GapEntry) (h : q.length + 1 ≤ Config.queueCapacity) :
    QueueFits (q ++ [.gap g]) :=
  ⟨by rwa [List.length_append], fun _ => ⟨g, List.getLast?_concat⟩⟩

theorem QueueFits.nil : QueueFits [] := .of_lt (by decide)

/-- What is left behind the head is not full. -/
theorem QueueFits.tail {q : List Entry} (h : QueueFits q) : QueueFits q.tail := by
  refine .of_lt ?_
  have hlen := h.length
  have hcap : 0 < Config.queueCapacity := by decide
  rw [List.length_tail]
  omega

/-- A half-hour recorded as a gap: a last gap entry is extended, or one is appended while an entry is free. -/
theorem QueueFits.recordGap (hq : QueueFits s.queue) (h : HalfHourStamp) : QueueFits (recordGap h s).queue := by
  have append (start : HalfHourStamp) (n : Nat) (hlt : s.queue.length < Config.queueCapacity) :
      QueueFits (appendGap start n s).queue := .of_gap _ hlt
  have extend (g : GapEntry) (n : Nat) (hlast : s.queue.getLast? = some (.gap g)) :
      QueueFits (setLastGap g n s).queue := by
    refine .of_gap _ ?_
    have hlen := hq.length
    have hpos : 0 < s.queue.length := List.length_pos_iff.mpr fun hnil => by rw [hnil] at hlast; cases hlast
    rw [List.length_dropLast]
    omega
  unfold Machine.recordGap
  split
  · next g hlast =>
    split
    · exact extend g _ hlast
    · split
      · next hlt => exact append _ _ hlt
      · exact extend g _ hlast
  all_goals
    split
    · next hlt => exact append _ _ hlt
    · exact hq

theorem QueueFits.queueBatch (hq : QueueFits s.queue) (h : HalfHourStamp) (l : List Entry) :
    QueueFits (queueBatch h l s).queue := by
  unfold Machine.queueBatch
  split
  · exact hq
  · split
    · next hroom =>
      refine .of_lt ?_
      show (s.queue ++ l).length < _
      rw [List.length_append]
      omega
    · exact hq.recordGap h

theorem QueueFits.closeHalfHour (hq : QueueFits s.queue) (h : HalfHourStamp) : QueueFits (closeHalfHour h s).queue := by
  rw [closeHalfHour_queue]
  exact hq.queueBatch h _

theorem QueueFits.collectMinute (hq : QueueFits s.queue) (m : MinuteStamp) (i : Bool) :
    QueueFits (collectMinute m i s).queue := by
  have records : QueueFits (collectRecords m i s).queue := hq
  have raised (c : ChannelNo) : QueueFits (raiseEvent .minuteIncomplete c (collectRecords m i s)).queue := hq
  unfold Machine.collectMinute
  dsimp only
  split
  · split
    · exact (raised _).closeHalfHour _
    · exact records.closeHalfHour _
  · split
    · exact raised _
    · exact records

/-! ## Boundaries (04 R71 to R76) -/

/-- The minute in grace is collected in RUN (04 R70). -/
theorem Clocked.graceCollected (hs : Clocked b s) {g : GraceMinute} (hg : s.clock.inGrace = some g) :
    Clocked b (graceCollected g s) := by
  have hrun : s.clock.state = .run := hs.record.graceRun (by rw [hg]; rfl)
  obtain ⟨-, -, hsup, hcal, hsaved, hset⟩ := hs.record
  exact hs.inRun (run_not_stopped hrun) (collectMinute_part ..) hrun ⟨Iff.rfl, nofun, hsup, hcal, hsaved, hset⟩
    (hs.fits.collectMinute g.stamp g.internal)

theorem Clocked.collectGrace (hs : Clocked b s) : Clocked b (collectGrace s) := by
  cases hg : s.clock.inGrace with
  | none => rwa [collectGrace_none hg]
  | some g =>
    rw [collectGrace_some hg]
    exact hs.graceCollected hg

/-- A boundary in RUN with nothing in grace. -/
theorem Clocked.boundary_of_none (hs : Clocked b s) (hrun : s.clock.state = .run) (hg : s.clock.inGrace = none) (i : Bool) :
    Clocked b (boundary i s) := by
  have live := run_not_stopped hrun
  have collected (m : MinuteStamp) : QueueFits (collectMinute m i { s with inputs := frozenInputs s }).queue :=
    QueueFits.collectMinute (s := { s with inputs := frozenInputs s }) hs.fits m i
  obtain ⟨-, -, hsup, hcal, hsaved, hset⟩ := hs.record
  by_cases hpos : s.clock.position = lastMinute
  · rw [boundary_ends hpos hg]
    exact
      { phase := by
          have running := not_not.mp (mt hs.phase.mpr live)
          rw [collectMinute_part]
          exact iff_of_false nofun (not_not.mpr running)
        record := ⟨by simp [hg], by simp [hg], by simp, fun _ => hcal (.inl hrun), fun _ => rfl, hset⟩
        fits := collected _
        held := nofun }
  · rcases Nat.eq_zero_or_pos s.clock.graceSetting with hzero | hgrace
    · rw [boundary_collects hpos hg hzero]
      exact hs.inRun live (collectMinute_part ..) hrun
        ⟨by simp [hg], fun _ => hrun, by simp [hrun], fun _ => hcal (.inl hrun), hsaved, hset⟩
        (collected _)
    · rw [boundary_opens hpos hg hgrace]
      exact hs.inRun live rfl hrun
        ⟨by simp, fun _ => hrun, by simp [hrun], fun _ => hcal (.inl hrun), hsaved, hset⟩ hs.fits

theorem Clocked.boundary (hs : Clocked b s) (hrun : s.clock.state = .run) (i : Bool) : Clocked b (boundary i s) := by
  cases hg : s.clock.inGrace with
  | none => exact hs.boundary_of_none hrun hg i
  | some g =>
    rw [boundary_of_grace hg]
    exact (hs.graceCollected hg).boundary_of_none hrun rfl i

/-- The source and the reference are outside the laws, and so is when a running supervision expires. -/
theorem Clocked.setSource (hs : Clocked b s) (src : TimeSource) : Clocked b (setSource src s) := by
  obtain ⟨hgrace, hgraceRun, hsup, hcal, hsaved, hset⟩ := hs.record
  exact ⟨hs.phase, ⟨hgrace, hgraceRun, hsup, hcal, hsaved, hset⟩, hs.fits, hs.held⟩

theorem Clocked.restartSupervision (hs : Clocked b s) (hrun : s.clock.state = .run) (i : Bool) :
    Clocked b (restartSupervision i s) := by
  obtain ⟨hgrace, hgraceRun, -, hcal, hsaved, hset⟩ := hs.record
  exact hs.inRun (run_not_stopped hrun) rfl hrun ⟨hgrace, hgraceRun, iff_of_true rfl hrun, hcal, hsaved, hset⟩ hs.fits

theorem Clocked.takePulse (hs : Clocked b s) : Clocked b (takePulse s) := by
  by_cases hrun : s.clock.state = .run
  · cases early : earlyPulse s with
    | false =>
      rw [takePulse_boundary hrun early]
      exact (hs.setSource .external).boundary hrun false
    | true =>
      cases hsrc : s.clock.source with
      | external => rwa [takePulse_early_external hrun early hsrc]
      | internal =>
        rw [takePulse_early_internal hrun early hsrc]
        exact (hs.setSource .external).restartSupervision hrun false
  · rwa [takePulse_idle hrun]

theorem Clocked.expireSupervision (hs : Clocked b s) : Clocked b (expireSupervision s) := by
  unfold Machine.expireSupervision
  split
  · next e hrun _ =>
    rw [loseClock_advanceTo]
    have lost : Clocked b (sourceLost e s) := (hs.setSource .internal).same rfl rfl rfl
    exact lost.boundary hrun true
  · exact hs

theorem Clocked.expireGrace (hs : Clocked b s) : Clocked b (expireGrace s) := by
  unfold Machine.expireGrace
  split
  · exact Clocked.collectGrace (hs.same rfl rfl rfl)
  · exact hs

/-! ## The requests (04 R78 to R85) -/

theorem Clocked.setGrace (hs : Clocked b s) (r : Request) : (performSetGrace r s).Leads (Clocked b) := by
  unfold performSetGrace
  split
  · next g hg =>
    obtain ⟨hgrace, hgraceRun, hsup, hcal, hsaved, -⟩ := hs.record
    exact ⟨hs.phase, ⟨hgrace, hgraceRun, hsup, hcal, hsaved, (natArg_range hg).2⟩, hs.fits, hs.held⟩
  · trivial

theorem Clocked.setCalendar (hs : Clocked b s) (hlive : s.clock.state ≠ .stopped) (r : Request) :
    (performSetCalendar r s).Leads (Clocked b) := by
  unfold performSetCalendar
  split
  · trivial
  · refine Reply.leads_check fun _ => Reply.leads_check fun _ => ?_
    rw [stateCalendar_eq]
    exact hs.inRun hlive rfl rfl
      ⟨Iff.rfl, nofun, iff_of_true rfl rfl, fun _ => rfl, fun _ => rfl, hs.record.setting⟩ hs.fits

/-- A clock in HOLD with a calendar enters RUN, behind the outage gap where there is one (04 R85). -/
theorem Clocked.resumedAt (hs : Clocked b s) (hhold : s.clock.state = .hold) (hclock : t.clock = s.clock)
    (hpart : t.part = s.part) (hfits : QueueFits t.queue) (x : MinuteStamp) : Clocked b (resumeAt x t) := by
  have hlive : s.clock.state ≠ .stopped := by
    rw [hhold]
    nofun
  have hcal := hs.record.calendar (.inr hhold)
  have hset := hs.record.setting
  have hsaved := hs.record.saved hcal
  rw [← hclock] at hcal hset hsaved
  rw [resumeAt_eq]
  exact hs.inRun hlive hpart rfl ⟨Iff.rfl, nofun, iff_of_true rfl rfl, fun _ => hcal, fun _ => hsaved, hset⟩ hfits

/-- RESUME leaves a HOLD in which the queue is empty (06 R109). -/
theorem Clocked.resume (hs : Clocked b s) (r : Request) : (performResume r s).Leads (Clocked b) := by
  by_cases hhold : s.clock.state = .hold
  case neg => rw [performResume_state hhold]; trivial
  obtain ⟨S, hS⟩ := Option.isSome_iff_exists.mp (hs.record.saved (hs.record.calendar (.inr hhold)))
  cases hP : minuteArg r with
  | none => rw [performResume_noMinute hhold hP]; trivial
  | some P =>
    rw [performResume_hold hhold hP hS]
    refine Reply.leads_check fun hend => Reply.leads_check fun _ => Reply.leads_check fun _ => ?_
    split
    · exact hs.resumedAt hhold rfl rfl hs.fits P
    · refine hs.resumedAt (t := takeUp .engine (appendGap S.halfHour _ s)) hhold (takeUp_clock ..) (takeUp_part ..) ?_ P
      rw [takeUp_queue]
      show QueueFits (s.queue ++ [_])
      rw [hs.held hhold (Bool.eq_false_iff.mpr hend)]
      exact .of_gap (q := []) _ (by decide)

/-- Nothing that the laws read changes by a request of the engine or of the Stack Monitor. -/
def SameClock (s t : State) : Prop := t.clock = s.clock ∧ t.part = s.part ∧ t.queue = s.queue

theorem Clocked.sameClock (hs : Clocked b s) (h : SameClock s t) : Clocked b t := hs.same h.1 h.2.1 h.2.2

theorem tablesOnly_sameClock (h : TablesOnly s t) : SameClock s t := by
  rw [h]
  exact ⟨rfl, rfl, rfl⟩

theorem performRequest_sameClock {c : RequestCode} (hc : c.owner ≠ .clock) (r : Request) (s : State) :
    (performRequest c r s).Leads (SameClock s) := by
  have tables (howner : c.owner = .engine) (hne : c ≠ .setAllowance) : (performRequest c r s).Leads (SameClock s) :=
    (engineRequest_tablesOnly howner hne r s).mono fun _ => tablesOnly_sameClock
  have others (hne : c ≠ .resume) (hslots : (performRequest c r s).Leads (SameSlots s)) :
      (performRequest c r s).Leads (SameClock s) := by
    have hands := performRequest_sameHands hne r s
    cases h : performRequest c r s with
    | done v t =>
      rw [h] at hands hslots
      exact ⟨hslots.2, hands.part, hands.queue⟩
    | refused o => trivial
    | read v snap => trivial
  cases c with
  | setAllowance => exact others nofun (setAllowance_sameSlots r s)
  | setFeedInput => exact others nofun (setFeedInput_sameSlots r s)
  | declareAbnormal => exact others nofun (declareAbnormal_sameSlots r s)
  | endAbnormal => exact others nofun (endAbnormal_sameSlots r s)
  | setGrace | setCalendar | resume => exact absurd rfl hc
  | _ => exact tables rfl nofun

theorem Clocked.performed (hs : Clocked b s) (hlive : s.clock.state ≠ .stopped) (c : RequestCode) (r : Request) :
    (performRequest c r s).Leads (Clocked b) := by
  by_cases hc : c.owner = .clock
  · cases c with
    | setGrace => exact hs.setGrace r
    | setCalendar => exact hs.setCalendar hlive r
    | resume => exact hs.resume r
    | _ => cases hc
  · exact (performRequest_sameClock hc r s).mono fun _ => hs.sameClock

/-- A request in hand is performed and completed while the clock has not stopped. -/
theorem Clocked.completed (hs : Clocked b s) (hh : Hands b none s) {o : Owner} {p : Port} {c : RequestCode} {r : Request}
    (h : handRequest s o = some (p, c, r)) : Clocked b (finish o (answer p r.code (performRequest c r s) s)) := by
  have performed := hs.performed (hs.not_stopped (hh.live o p (handRequest_iff.mp h).1)) c r
  have completed {u : State} (hu : Clocked b u) (out : ReqOutcome) (l : List Word32) :
      Clocked b (finish o (complete p r.code out l u)) :=
    hu.same ((finish_clock ..).trans (complete_clock ..)) ((finish_part ..).trans (complete_part ..))
      ((finish_queue ..).trans (complete_queue ..))
  cases h : performRequest c r s with
  | refused out => exact completed hs out []
  | done v t =>
    rw [h] at performed
    exact completed performed .done v
  | read v snap =>
    have viewed : Clocked b (setView p snap s) := hs.same (setView_clock ..) (setView_part ..) (setView_queue ..)
    exact completed viewed .done v

theorem Clocked.completedInHand (hs : Clocked b s) (hh : Hands b none s) (q : Owner) : Clocked b (completeInHand q s) := by
  unfold completeInHand
  split
  · next h => exact hs.completed hh h
  · exact hs

theorem Clocked.allCompleted (hs : Clocked b s) (hh : Hands b none s) : Clocked b (completeAll s) :=
  (completeAll_induct (P := fun t => Hands b none t ∧ Clocked b t)
    (fun _ _ _ _ _ ht h => ⟨(ht.1.completed h).1, ht.2.completed ht.1 h⟩) ⟨hh, hs⟩).2

theorem Clocked.runRequest (hs : Clocked b s) (hh : Hands b none s) (c : RequestCode) :
    Answer.Leads (Clocked b) (runRequest c (performRequest c) s) := by
  unfold Machine.runRequest
  split
  · exact hs
  · next p r htaken =>
    obtain ⟨hands, -, clocked, kept⟩ :=
      Hands.earlierCompleted (P := fun t => Clocked b t ∧ handRequest t c.owner = some (p, c, r)) c.owner
        (fun t q ht h hq => ⟨h.1.completedInHand ht q, ht.request_kept hq h.2⟩) hh ⟨hs, hh.request_inHand htaken⟩
    exact clocked.completed hands kept

/-! ## Absorptions (07 R120 to R135) -/

theorem absorbing_clock (e : Entry) (s : State) : (absorbing e s).clock = s.clock := by
  cases e with
  | result e => exact absorbResult_clock e s
  | stack e => exact absorbStack_clock e s
  | dayEnd Y D => exact closeDay_clock Y D s
  | yearEnd Y => exact closeYear_clock Y s
  | gap g => exact walkGap_clock g.charged g.count g.start s

/-- The head leaves the queue. -/
theorem Clocked.headRemoved (hs : Clocked b s) : Clocked b (removeHead s) where
  phase := by
    rw [removeHead_clock, removeHead_part]
    exact hs.phase
  record := by
    rw [removeHead_clock]
    exact hs.record
  fits := hs.fits.tail
  held := fun hhold hend => by
    rw [removeHead_clock] at hhold hend
    show s.queue.tail = []
    rw [hs.held hhold hend]
    rfl

theorem Clocked.absorbHead (hs : Clocked b s) (hh : Hands b none s) (e : Entry) :
    Clocked b (absorbHead (absorbing e) s) := by
  obtain ⟨-, -, clocked⟩ := Hands.earlierCompleted (P := Clocked b) .engine
    (fun t q ht h _ => h.completedInHand ht q) hh hs
  have same := absorbing_sameHands e (completeEarlier .engine s)
  exact (clocked.same (absorbing_clock e _) same.part same.queue).headRemoved

/-! ## The stop and the restart (04 R81 to R83) -/

/-- The stop begins with the clock still live. -/
theorem Clocked.stopping (hs : Clocked False s) (hrun : s.part = .running) : Clocked True { s with part := .stopping } where
  phase := iff_of_false (hs.not_stopped (.inl hrun)) (not_not.mpr (.inr ⟨trivial, rfl⟩))
  record := hs.record
  fits := hs.fits
  held := hs.held

/-- The clock of a stopping part stops with nothing in grace. -/
theorem Clocked.clockStopped (hs : Clocked b s) (hpart : s.part = .stopping) (hg : s.clock.inGrace = none) :
    Clocked False (stopClock s) where
  phase := iff_of_true rfl (by
    rw [stopClock_part, hpart]
    simp)
  record :=
    { grace := iff_of_false (by simp [stopClock, hg]) nofun
      graceRun := fun h => by simp [stopClock, hg] at h
      supervised := iff_of_false nofun nofun
      calendar := fun h => h.elim nofun nofun
      saved := fun hcal => by
        show (if _ then some s.clock.position else s.clock.saved).isSome
        split
        · rfl
        · exact hs.record.saved hcal
      setting := hs.record.setting }
  fits := hs.fits
  held := nofun

theorem Clocked.stopBlocks (hs : Clocked b s) (hpart : s.part = .stopping) : Clocked False (stopBlocks s) := by
  have taken {u : State} (hu : Clocked False u) : Clocked False (takeUp .engine u) :=
    hu.same (takeUp_clock ..) (takeUp_part ..) (takeUp_queue ..)
  unfold Machine.stopBlocks
  split
  · exact taken (hs.collectGrace.clockStopped ((collectGrace_part s).trans hpart) (collectGrace_inGrace s))
  · next hrun =>
    exact taken (hs.clockStopped hpart (Option.not_isSome_iff_eq_none.mp (mt hs.record.graceRun hrun)))

theorem Clocked.beginStop (hs : Clocked False s) (hh : Hands False none s) : Clocked False (beginStop s) := by
  by_cases hrun : s.part = .running
  · rw [beginStop_running hrun]
    exact ((hs.stopping hrun).allCompleted hh.stopping).stopBlocks hh.stopping.allCompleted.2
  · rwa [beginStop_joins hrun]

theorem Clocked.partStopped (hs : Clocked False s) (hpart : s.part = .stopping) :
    Clocked False { s with part := .stopped } where
  phase := iff_of_true (hs.phase.mpr (by simp [hpart])) (by simp)
  record := hs.record
  fits := hs.fits
  held := hs.held

/-- After a restart the clock is in HOLD or in UNSET, by the calendar-set indication. -/
theorem Clock.restarted_state (c : Clock) : c.restarted.state = if c.calendarSet then .hold else .unset := rfl

/-- A record with nothing in grace and no supervision, outside RUN. -/
theorem Clock.Lawful.restarted {c : Clock} (hc : c.Lawful) : c.restarted.Lawful where
  grace := Iff.rfl
  graceRun := nofun
  supervised := iff_of_false nofun (by rw [Clock.restarted_state]; split <;> nofun)
  calendar := fun h => by
    rw [Clock.restarted_state] at h
    split at h
    · assumption
    · exact h.elim nofun nofun
  saved := hc.saved
  setting := hc.setting

theorem Clocked.volatileReset (hs : Clocked b s) : Clocked False (volatileReset s) where
  phase := iff_of_false (by
    show s.clock.restarted.state ≠ .stopped
    rw [Clock.restarted_state]
    split <;> nofun) (not_not.mpr (.inl rfl))
  record := hs.record.restarted
  fits := .nil
  held := fun _ _ => rfl

/-- The clock of a part that RSTN holds back after power-on (assumption 13). -/
theorem Clocked.resetHeld (hs : Clocked b s) : Clocked False (heldStopped (Machine.volatileReset s)) where
  phase := iff_of_true rfl (by simp [heldStopped])
  record := ⟨Iff.rfl, nofun, iff_of_false nofun nofun, fun h => h.elim nofun nofun, hs.record.saved, hs.record.setting⟩
  fits := .nil
  held := nofun

/-! ## The ports -/

theorem receiveByte_sameClock (v : Byte) (s : State) : SameClock s (receiveByte v s) :=
  ⟨receiveByte_clock .., receiveByte_part .., receiveByte_queue ..⟩

theorem portWrite_sameClock (p : Port) (loc : Loc) (v : Byte) (s : State) :
    Answer.Leads (SameClock s) (portWrite p loc v s) := by
  cases p with
  | a =>
    show Answer.Leads _ (frameWrite loc v s)
    unfold frameWrite
    split
    · exact ⟨windowWrite_clock .., windowWrite_part .., windowWrite_queue ..⟩
    · exact ⟨rfl, rfl, rfl⟩
  | b =>
    show Answer.Leads _ (valueWrite loc v s)
    unfold valueWrite
    split
    · exact receiveByte_sameClock v s
    · exact ⟨rfl, rfl, rfl⟩

theorem portRead_sameClock (p : Port) (loc : Loc) (s : State) : Answer.Leads (SameClock s) (portRead p loc s) := by
  cases p with
  | a =>
    show Answer.Leads _ (frameRead loc s)
    unfold frameRead
    split
    · exact ⟨windowRead_clock .a loc s, windowRead_part .a loc s, windowRead_queue .a loc s⟩
    · exact ⟨rfl, rfl, rfl⟩
  | b =>
    show Answer.Leads _ (selectorRead loc s)
    unfold selectorRead
    split
    · exact receiveByte_sameClock _ s
    · exact ⟨rfl, rfl, rfl⟩

theorem execFrameStart_sameClock (s : State) : Answer.Leads (SameClock s) (execFrameStart s) := by
  unfold execFrameStart
  split <;> exact ⟨rfl, rfl, rfl⟩

theorem execFrameHeader_sameClock (header : Byte) (s : State) :
    Answer.Leads (SameClock s) (execFrameHeader header s) := by
  unfold execFrameHeader
  split <;> exact ⟨rfl, rfl, rfl⟩

theorem execAnswerSent_sameClock (s : State) : Answer.Leads (SameClock s) (execAnswerSent s) := by
  unfold execAnswerSent
  split <;> exact ⟨rfl, rfl, rfl⟩

theorem shiftPlainByte_sameClock (h : shiftPlainByte s = some t) : SameClock s t := by
  unfold shiftPlainByte at h
  split at h
  · split at h
    · cases h
    · cases h
      exact ⟨rfl, rfl, rfl⟩
  all_goals cases h

/-! ## Every command and every step -/

/-- Whatever the command, the laws of the clock and of the queue hold behind it. -/
theorem Clocked.commandsLead (hs : Clocked False s) (hh : Hands False none s) : CommandsLead (Clocked False) s := by
  have completed := hs.allCompleted hh
  have same {a : Answer} (h : Answer.Leads (SameClock s) a) : Answer.Leads (Clocked False) a :=
    h.mono fun _ => hs.sameClock
  have lined (i : StackNo) (level : Bool) (t : State) : SameClock t (changeLine i level t) :=
    ⟨(sameSlots_changeLine i level t).2, (changeLine_sameHands i level t).part, (changeLine_sameHands i level t).queue⟩
  have expired (i : StackNo) (t : State) : SameClock t (expireDebounce i t) :=
    ⟨(sameSlots_expireDebounce i t).2, (expireDebounce_sameHands i t).part, (expireDebounce_sameHands i t).queue⟩
  exact
    { stay := hs
      request := hs.runRequest hh
      absorption := fun e _ => hs.absorbHead hh e
      pulse := completed.takePulse
      supervision := completed.expireSupervision
      grace := completed.expireGrace
      line := fun i level => completed.sameClock (lined i level _)
      debounce := fun i => completed.sameClock (expired i _)
      stop := fun _ _ => (hs.beginStop hh).same rfl rfl rfl
      pins := fun _ _ => hs.same rfl rfl rfl
      stopped := fun hpart _ => hs.partStopped hpart
      restart := fun _ => hs.volatileReset.same rfl rfl rfl
      restartHeld := hs.resetHeld.same rfl rfl rfl
      write := fun p loc v => same (portWrite_sameClock p loc v s)
      handOver := fun v => (portWrite_sameClock .a 0x6C v _).mono fun _ => completed.sameClock
      read := fun p loc => same (portRead_sameClock p loc s)
      receive := fun v => hs.sameClock (receiveByte_sameClock v s)
      frameStart := same (execFrameStart_sameClock s)
      frameHeader := fun header => same (execFrameHeader_sameClock header s)
      frameEnd := hs.same rfl rfl rfl
      framingError := hs.same rfl rfl rfl
      rxdBreak := hs.same rfl rfl rfl
      breakEnd := hs.same rfl rfl rfl
      answerSent := same (execAnswerSent_sameClock s) }

theorem Clocked.step (hs : Clocked False s) (hh : Hands False none s) : Answer.Leads (Clocked False) (step s) := by
  refine step_leads (fun c l => ?_) (fun t h => hs.sameClock (shiftPlainByte_sameClock h)) (hs.same rfl rfl rfl)
  have queued : Clocked False { s with pending := l } := hs.same rfl rfl rfl
  exact (queued.commandsLead (hh.same (.of_fields rfl rfl rfl rfl rfl rfl rfl rfl))).exec c

end

/-- Settles O57: the two laws together are kept by every command, beside the law of what the owners have in hand. -/
theorem stepKeepsClockAndQueueLaw : Obligations.StepKeepsClockAndQueueLaw := by
  intro s t hclock hqueue hhand hstep
  have clocked := (clocked_iff.mpr ⟨hclock, hqueue⟩).step (handLaw_iff.mp hhand)
  rw [hstep] at clocked
  exact clocked_iff.mp clocked

end Sys2Proof.Machine
end

section
/-! SUPPORT. The Minute Collector and the offer to the Result Queue (05, 06): the class of a minute, what a collection counts,
the batch of a half-hour and its close. -/

namespace Sys2Proof.Machine

/-! # The class of a minute (05 R88 to R90) -/

/-! ## Rounding (05 R90) -/

/-- The rounded quotient is the nearest integer: its product with the divisor is within half a divisor of the dividend, and
short of it at no exact half. -/
theorem roundDiv_nearest (a : Int) {n : Nat} (hn : 0 < n) : Nearest a n (roundDiv a n) := by
  obtain ⟨q, hq⟩ : ∃ q, q = (2 * a.natAbs + n) / (2 * n) := ⟨_, rfl⟩
  have below : 2 * (q * n) ≤ 2 * a.natAbs + n := by
    have := Nat.div_mul_le_self (2 * a.natAbs + n) (2 * n)
    rw [← hq] at this
    linarith
  have above : 2 * a.natAbs + n < 2 * (q * n) + 2 * n := by
    have := Nat.lt_div_mul_add (a := 2 * a.natAbs + n) (b := 2 * n) (by omega)
    rw [← hq] at this
    linarith
  have signed : roundDiv a n * n = if a < 0 then -((q * n : Nat) : Int) else ((q * n : Nat) : Int) := by
    unfold roundDiv
    rw [← hq]
    split <;> push_cast <;> ring
  unfold Nearest
  rw [signed]
  split <;> constructor <;> omega

/-! ## The record taken for a channel -/

section
variable {s : State} {m : MinuteStamp} {c : ChannelNo}

theorem takenAt_iff {ch : Channel} {p : PostingSlot} :
    takenAt ch m p = true ↔ ch.state = .collecting ∧ p.loaded = true ∧ p.stamp = m := by
  simp [takenAt, and_assoc]

theorem takenRecord_loaded {n : SlotName} (hc : (s.channel c).state = .collecting) (h : LoadedFor s c m n) :
    takenRecord s m c = some ((s.slotPair c).get n) := by
  obtain ⟨loaded, stamp, only⟩ := h
  have taken := takenAt_iff.mpr ⟨hc, loaded, stamp⟩
  have left : ¬ takenAt (s.channel c) m ((s.slotPair c).get n.other) = true := fun h =>
    have ⟨_, loaded', stamp'⟩ := takenAt_iff.mp h
    only loaded' stamp'
  cases n with
  | x => exact if_pos taken
  | y => exact (if_neg left).trans (if_pos taken)

theorem takenRecord_none (h : NoneLoadedFor s c m) : takenRecord s m c = none := by
  have left (n : SlotName) : ¬ takenAt (s.channel c) m ((s.slotPair c).get n) = true := fun hn =>
    have ⟨_, loaded, stamp⟩ := takenAt_iff.mp hn
    h n loaded stamp
  exact (if_neg (left .x)).trans (if_neg (left .y))

theorem frozenMarks_some {i : StackNo} {f : Marks} (h : (s.inputs.get i).frozen = some f) : frozenMarks s i = f := by
  rw [frozenMarks, h, Option.getD_some]

/-! ## The class without the oxygen source (05 R88, cases 1 to 5 and 7) -/

/-- The class that a taken record gives a minute by its quality, its value and the channel's bounds. -/
def recordClass (ch : Channel) (p : PostingSlot) : MinuteClass :=
  if p.qualityCode = 2 ∨ p.qualityCode = 3 then .service
  else if p.qualityCode = 1 then .fault
  else if p.number < ch.low ∨ ch.high < p.number then .range
  else .valid

section
variable {ch : Channel} {p : PostingSlot}

theorem recordClass_service (hq : p.qualityCode = 2 ∨ p.qualityCode = 3) : recordClass ch p = .service := if_pos hq

theorem recordClass_fault (hq : p.qualityCode = 1) : recordClass ch p = .fault := by
  simp [recordClass, hq]

theorem recordClass_range (hq : p.qualityCode = 0) (hv : p.number < ch.low ∨ ch.high < p.number) :
    recordClass ch p = .range := by
  simp [recordClass, hq, hv]

end

theorem recordClass_valid_iff {ch : Channel} {p : PostingSlot} :
    recordClass ch p = .valid ↔
      ¬ (p.qualityCode = 1 ∨ p.qualityCode = 2 ∨ p.qualityCode = 3) ∧ ch.low ≤ p.number ∧ p.number ≤ ch.high := by
  unfold recordClass
  split
  · next hs => simp [hs]
  split
  · next hf => simp [hf]
  split
  · next hr => simp only [reduceCtorEq, false_iff]; omega
  · simp only [true_iff]; omega

theorem ownClass_notOperating (hf : (frozenMarks s (s.channel c).stack).fired = false) :
    ownClass s m c = .notOperating := by
  simp [ownClass, hf]

theorem ownClass_missing (hf : (frozenMarks s (s.channel c).stack).fired = true) (hp : takenRecord s m c = none) :
    ownClass s m c = .missing := by
  simp [ownClass, hf, hp]

theorem ownClass_taken {p : PostingSlot} (hf : (frozenMarks s (s.channel c).stack).fired = true)
    (hp : takenRecord s m c = some p) : ownClass s m c = recordClass (s.channel c) p := by
  simp [ownClass, recordClass, hf, hp]

/-! ## The oxygen source and the class (05 R88 case 6, R89) -/

/-- The three conditions on an oxygen source, and that its value is that of the record taken for it. -/
theorem oxygenValue_eq_some {v : Int} :
    oxygenValue s m c = some v ↔
      (s.channel c).state = .collecting ∧ ownClass s m c = .valid ∧
        ∃ p, takenRecord s m c = some p ∧ p.number = v ∧ v < 2000 := by
  unfold oxygenValue
  cases takenRecord s m c with
  | none => simp
  | some p =>
    simp only [Option.ite_none_right_eq_some, Option.some.injEq, exists_eq_left', and_assoc]
    refine and_congr_right fun _ => and_congr_right fun _ => ⟨?_, ?_⟩
    · rintro ⟨hlt, rfl⟩
      exact ⟨rfl, hlt⟩
    · rintro ⟨rfl, hlt⟩
      exact ⟨hlt, rfl⟩

/-- Case 6 concerns only a channel that the other cases leave VALID and that has an oxygen source. -/
theorem minuteClass_own (h : ownClass s m c ≠ .valid ∨ (s.channel c).oxygen = none) :
    minuteClass s m c = ownClass s m c := by
  unfold minuteClass
  split
  · next hv ho => exact absurd h (by simp [hv, ho])
  · rfl

theorem ownClass_of_minuteClass_valid (h : minuteClass s m c = .valid) : ownClass s m c = .valid := by
  by_contra hne
  exact hne ((minuteClass_own (.inl hne)).symm.trans h)

theorem minuteClass_oxygen {o : OxygenTerm} (hv : ownClass s m c = .valid) (ho : (s.channel c).oxygen = some o) :
    minuteClass s m c = if (oxygenValue s m o.source).isSome then .valid else .oxygen := by
  simp only [minuteClass, hv, ho]

/-- A COLLECTING source on a stack that fired has a value to normalise by when its record is VALID by itself and lies
below 2000. -/
theorem oxygenValue_isSome_iff {p : PostingSlot} (hc : (s.channel c).state = .collecting)
    (hf : (frozenMarks s (s.channel c).stack).fired = true) (hp : takenRecord s m c = some p) :
    (oxygenValue s m c).isSome = true ↔ recordClass (s.channel c) p = .valid ∧ p.number < 2000 := by
  simp [Option.isSome_iff_exists, oxygenValue_eq_some, hc, hp, ownClass_taken hf hp]

/-- A source that is not COLLECTING, or for which no record is taken, has no value. -/
theorem oxygenValue_isSome (h : (oxygenValue s m c).isSome = true) :
    (s.channel c).state = .collecting ∧ ∃ p, takenRecord s m c = some p := by
  obtain ⟨v, hv⟩ := Option.isSome_iff_exists.mp h
  obtain ⟨hc, -, p, hp, -⟩ := oxygenValue_eq_some.mp hv
  exact ⟨hc, p, hp⟩

end

/-- Settles O12: the own class by the record taken, and behind it the oxygen source's record by the same classes. -/
theorem minuteClassFollowsCases : Obligations.MinuteClassFollowsCases := by
  intro s m c f hc hfrozen
  have marks := frozenMarks_some hfrozen
  refine ⟨fun hf => ?_, fun hf hnone => ?_, fun n hf hn => ?_⟩
  · have own := ownClass_notOperating (m := m) (marks ▸ hf)
    rw [minuteClass_own (.inl (by rw [own]; nofun)), own]
  · have own := ownClass_missing (marks ▸ hf) (takenRecord_none hnone)
    rw [minuteClass_own (.inl (by rw [own]; nofun)), own]
  have own := ownClass_taken (marks ▸ hf) (takenRecord_loaded hc hn)
  have stands {k : MinuteClass} (hk : recordClass (s.channel c) ((s.slotPair c).get n) = k) (hne : k ≠ .valid) :
      minuteClass s m c = k := by
    rw [← hk, ← own] at hne
    rw [minuteClass_own (.inl hne), own, hk]
  refine ⟨fun hq => stands (recordClass_service hq) nofun, fun hq => stands (recordClass_fault hq) nofun,
    fun hq hr => stands (recordClass_range hq hr) nofun, fun hq hlow hhigh => ?_⟩
  rw [recordClass_valid_iff.mpr ⟨by omega, hlow, hhigh⟩] at own
  refine ⟨fun ho => by rw [minuteClass_own (.inr ho), own], fun o ho hstack => ?_⟩
  have decided := minuteClass_oxygen own ho
  refine ⟨fun hsrc => ?_, fun _ hnone => ?_, fun k hsrc hk => ?_⟩
  · rw [decided, if_neg fun h => ?_]
    obtain ⟨collecting, -⟩ := oxygenValue_isSome h
    exact hsrc collecting
  · rw [decided, if_neg fun h => ?_]
    obtain ⟨-, p, hp⟩ := oxygenValue_isSome h
    exact absurd hp (by rw [takenRecord_none hnone]; nofun)
  have source := oxygenValue_isSome_iff hsrc (by rw [hstack, marks, hf]) (takenRecord_loaded hsrc hk)
  rw [recordClass_valid_iff, PostingSlot.number] at source
  refine ⟨fun hq => ?_, fun hv => ?_, fun hq hlow hhigh hlt => ?_⟩
  · rw [decided, if_neg fun h => ?_]
    obtain ⟨⟨good, -⟩, -⟩ := source.mp h
    exact good hq
  · rw [decided, if_neg fun h => ?_]
    obtain ⟨⟨-, hlow, hhigh⟩, hlt⟩ := source.mp h
    omega
  · rw [decided, if_pos (source.mpr ⟨⟨by omega, hlow, hhigh⟩, hlt⟩)]

/-! # A collection counted (05 R93 to R96) -/

/-! ## One minute in an accumulator (05 R93) -/

section
variable (acc : Accumulator) (k : MinuteClass) (v : Int)

theorem Accumulator.count_valid : (acc.count k v).valid = acc.valid + (k == .valid).toNat := by cases k <;> rfl
theorem Accumulator.count_missing : (acc.count k v).missing = acc.missing + (k == .missing).toNat := by cases k <;> rfl
theorem Accumulator.count_service : (acc.count k v).service = acc.service + (k == .service).toNat := by cases k <;> rfl
theorem Accumulator.count_fault : (acc.count k v).fault = acc.fault + (k == .fault).toNat := by cases k <;> rfl
theorem Accumulator.count_range : (acc.count k v).range = acc.range + (k == .range).toNat := by cases k <;> rfl
theorem Accumulator.count_oxygen : (acc.count k v).oxygen = acc.oxygen + (k == .oxygen).toNat := by cases k <;> rfl
theorem Accumulator.count_operating :
    (acc.count k v).operating = acc.operating + (k != .notOperating).toNat := by cases k <;> rfl
theorem Accumulator.count_abnormal : (acc.count k v).abnormal = acc.abnormal := by cases k <;> rfl
theorem Accumulator.count_internal : (acc.count k v).internal = acc.internal := by cases k <;> rfl

/-- Only a VALID minute has a value in the sum. -/
theorem Accumulator.count_sum : (acc.count k v).sum = acc.sum + if k = .valid then v else 0 := by
  cases k <;> simp [Accumulator.count]

end

/-! ## The accumulator of a channel (05 R93, R94) -/

section
variable {s : State} {m : MinuteStamp} {i : Bool} {c : ChannelNo}

theorem collectAccumulator_collecting (hc : (s.channel c).state = .collecting) :
    collectAccumulator s m i c =
      ((s.accumulators.get c).count (minuteClass s m c) (enteredValue s m c)).flag
        (minuteClass s m c != .notOperating && (frozenMarks s (s.channel c).stack).abnormal) i :=
  if_pos hc

theorem collectAccumulator_unlinked (hc : (s.channel c).state ≠ .collecting) (hl : (s.channel c).link = none) :
    collectAccumulator s m i c = s.accumulators.get c := by
  simp [collectAccumulator, hc, hl]

/-- A linked channel that is not COLLECTING counts a fired minute as operating and MISSING. -/
theorem collectAccumulator_linked (hc : (s.channel c).state ≠ .collecting) (hl : (s.channel c).link ≠ none) :
    collectAccumulator s m i c =
      let f := frozenMarks s (s.channel c).stack
      let a := s.accumulators.get c
      { a with
        operating := a.operating + f.fired.toNat
        missing := a.missing + f.fired.toNat
        abnormal := a.abnormal || (f.fired && f.abnormal)
        internal := a.internal || i } := by
  have linked := Option.isSome_iff_ne_none.mpr hl
  unfold collectAccumulator
  simp only [hc, linked, if_true, if_false]
  cases (frozenMarks s (s.channel c).stack).fired <;> rfl

/-! ## The value that enters the sum (05 R91) -/

theorem enteredValue_measured {p : PostingSlot} (hp : takenRecord s m c = some p) (ho : (s.channel c).oxygen = none) :
    enteredValue s m c = p.number := by
  simp only [enteredValue, hp, ho]

theorem enteredValue_normalised {p : PostingSlot} {o : OxygenTerm} {o2 : Int} (hp : takenRecord s m c = some p)
    (ho : (s.channel c).oxygen = some o) (hv : oxygenValue s m o.source = some o2) :
    enteredValue s m c = roundDiv (p.number * (2100 - (o.reference : Int))) (2100 - o2).toNat := by
  simp only [enteredValue, hp, ho, hv]

/-- A VALID minute with an oxygen source has the source's taken value below 2000. -/
theorem oxygenValue_of_valid {o : OxygenTerm} (h : minuteClass s m c = .valid)
    (ho : (s.channel c).oxygen = some o) {j : SlotName} (hj : LoadedFor s o.source m j) :
    oxygenValue s m o.source = some ((s.slotPair o.source).get j).number ∧ ((s.slotPair o.source).get j).number < 2000 := by
  rw [minuteClass_oxygen (ownClass_of_minuteClass_valid h) ho] at h
  have some_value : (oxygenValue s m o.source).isSome = true := by
    by_contra hn
    rw [if_neg hn] at h
    cases h
  obtain ⟨v, hv⟩ := Option.isSome_iff_exists.mp some_value
  obtain ⟨hsrc, -, p, hp, rfl, hlt⟩ := oxygenValue_eq_some.mp hv
  cases (takenRecord_loaded hsrc hj).symm.trans hp
  exact ⟨hv, hlt⟩

/-- The value of a VALID minute is the nearest integer to its normalised value; the divisor is at least 101. -/
theorem enteredValue_nearest {o : OxygenTerm} {n j : SlotName} (hc : (s.channel c).state = .collecting)
    (h : minuteClass s m c = .valid) (hn : LoadedFor s c m n) (ho : (s.channel c).oxygen = some o)
    (hj : LoadedFor s o.source m j) :
    Nearest (((s.slotPair c).get n).number * (2100 - (o.reference : Int)))
      (2100 - ((s.slotPair o.source).get j).number).toNat (enteredValue s m c) := by
  obtain ⟨hv, hlt⟩ := oxygenValue_of_valid h ho hj
  rw [enteredValue_normalised (takenRecord_loaded hc hn) ho hv]
  exact roundDiv_nearest _ (by omega)

end

/-! ## MINUTE_INCOMPLETE and the whole collection (05 R86, R95) -/

theorem firstMissing_lowest {s : State} {m : MinuteStamp} {c : ChannelNo}
    (hc : (s.channel c).state = .collecting ∧ minuteClass s m c = .missing)
    (hlow : ∀ d, d < c → ¬ ((s.channel d).state = .collecting ∧ minuteClass s m d = .missing)) :
    firstMissing s m = some c :=
  find_lowest (by simpa using hc) fun d hd => by simpa using hlow d hd

theorem firstMissing_none {s : State} {m : MinuteStamp}
    (h : ∀ c, ¬ ((s.channel c).state = .collecting ∧ minuteClass s m c = .missing)) : firstMissing s m = none :=
  lowest_none fun c => by simpa using h c

/-- The events of a collection: MINUTE_INCOMPLETE with the channel found, if any. -/
def noteMissing (u : EventUnit) : Option ChannelNo → EventUnit
  | some c => u.record .minuteIncomplete c
  | none => u

/-- The state in which a collection has counted its minute and not yet closed a half-hour. -/
def minuteCounted (m : MinuteStamp) (i : Bool) (s : State) : State :=
  { collectRecords m i s with events := noteMissing s.events (firstMissing s m) }

/-- A collection is its counting, and behind the last minute of a half-hour the close on what was counted. -/
theorem collectMinute_eq (m : MinuteStamp) (i : Bool) (s : State) :
    collectMinute m i s =
      if m.minute % 30 = 29 then closeHalfHour m.halfHour (minuteCounted m i s) else minuteCounted m i s := by
  have last : m.endsHalfHour = true ↔ m.minute % 30 = 29 := beq_iff_eq
  unfold collectMinute minuteCounted
  dsimp only
  simp only [last]
  cases firstMissing s m <;> rfl

theorem accumulators_minuteCounted (m : MinuteStamp) (i : Bool) (s : State) (c : ChannelNo) :
    (minuteCounted m i s).accumulators.get c = collectAccumulator s m i c := get_tabulate ..

theorem counts_minuteCounted (m : MinuteStamp) (i : Bool) (s : State) (k : StackNo) :
    (minuteCounted m i s).counts.get k = collectCount s k := get_tabulate ..

theorem events_minuteCounted (m : MinuteStamp) (i : Bool) (s : State) :
    (minuteCounted m i s).events = noteMissing s.events (firstMissing s m) := rfl

/-- Settles O13: channel by channel the accumulator, stack by stack the count, and the close behind the last minute. -/
theorem collectionCountsMinute : Obligations.CollectionCountsMinute := by
  intro m i s
  refine ⟨minuteCounted m i s, collectMinute_eq m i s, fun c hc => ?_, fun c hc hl => ?_, fun c hc hl => ?_,
    fun k => counts_minuteCounted m i s k, fun c hmiss hlow => ?_, fun hnone => ?_, rfl⟩
  · have sum : (collectAccumulator s m i c).sum =
        (s.accumulators.get c).sum + if minuteClass s m c = .valid then enteredValue s m c else 0 := by
      rw [collectAccumulator_collecting hc]
      exact Accumulator.count_sum ..
    dsimp only
    rw [accumulators_minuteCounted, sum, collectAccumulator_collecting hc]
    refine ⟨Accumulator.count_valid .., Accumulator.count_missing .., Accumulator.count_service ..,
      Accumulator.count_fault .., Accumulator.count_range .., Accumulator.count_oxygen .., Accumulator.count_operating ..,
      congrArg (· || _) (Accumulator.count_abnormal ..), congrArg (· || _) (Accumulator.count_internal ..),
      fun hk => by rw [if_neg hk, Int.add_zero], fun n hk hn => ?_⟩
    rw [if_pos hk]
    refine ⟨fun ho => ?_, fun o j ho hj => ?_⟩
    · rw [enteredValue_measured (takenRecord_loaded hc hn) ho]
      rfl
    · rw [add_sub_cancel_left]
      exact enteredValue_nearest hc hk hn ho hj
  · rw [accumulators_minuteCounted, collectAccumulator_unlinked hc hl]
  · dsimp only
    rw [accumulators_minuteCounted, collectAccumulator_linked hc hl]
  · rw [events_minuteCounted, firstMissing_lowest hmiss hlow]
    rfl
  · rw [events_minuteCounted, firstMissing_none hnone]
    rfl

/-! # The close of a half-hour (05 R97 to R102, 06 R106 to R108) -/

/-! ## The batch (05 R98 to R102) -/

theorem halfHourClass_excluded {n : Nat} {acc : Accumulator} (h : acc.operating = 0) :
    halfHourClass n acc = .excluded := if_pos h

theorem halfHourClass_valid {n : Nat} {acc : Accumulator} (h : acc.operating ≠ 0) (hn : n ≤ acc.valid) :
    halfHourClass n acc = .valid (roundDiv acc.sum acc.valid) := (if_neg h).trans (if_pos hn)

theorem halfHourClass_invalid {n : Nat} {acc : Accumulator} (h : acc.operating ≠ 0) (hn : acc.valid < n) :
    halfHourClass n acc = .invalid := (if_neg h).trans (if_neg (by omega))

theorem resultEntry_eq (s : State) (h : HalfHourStamp) (c : ChannelNo) :
    resultEntry s h c = (s.channel c).link.map fun slot => .result
      { slot := slot, stamp := h, cls := halfHourClass (s.channel c).minMinutes (s.accumulators.get c)
        abnormal := (s.accumulators.get c).abnormal, internal := (s.accumulators.get c).internal } := by
  unfold resultEntry
  cases (s.channel c).link <;> rfl

/-- The STACK entries are those of the enabled stacks. -/
theorem filterMap_stackEntry (s : State) (h : HalfHourStamp) (l : List StackNo) :
    l.filterMap (stackEntry s h) = (l.filter fun i => (s.input i).enable).map fun i => .stack
      { stack := i, stamp := h, fired := (s.counts.get i).fired, abnormal := (s.counts.get i).abnormal } := by
  rw [← List.filterMap_eq_map, List.filterMap_filter]
  rfl

/-- Settles O15: the batch entry by entry, with the class of each linked channel's half-hour. -/
theorem batchHoldsHalfHour : Obligations.BatchHoldsHalfHour := by
  intro s h
  refine ⟨fun c => halfHourClass (s.channel c).minMinutes (s.accumulators.get c), ?_, fun c => ⟨fun hop => ?_,
    fun hop hleast hvalid => ?_, fun hop hlt => ?_⟩⟩
  · rw [batch, filterMap_stackEntry, List.filterMap_congr fun c _ => resultEntry_eq s h c]
  · exact halfHourClass_excluded hop
  · exact ⟨_, halfHourClass_valid hop hvalid, roundDiv_nearest _ (hleast.trans hvalid)⟩
  · exact halfHourClass_invalid hop hlt

/-! ## The offer of the batch (06 R106 to R108) -/

section
variable {s : State} {h : HalfHourStamp} {l : List Entry} {g : GapEntry}

theorem queueBatch_empty : queueBatch h [] s = s := if_pos rfl

theorem queueBatch_fits (hl : l ≠ []) (hroom : l.length + 1 ≤ Config.queueCapacity - s.queue.length) :
    queueBatch h l s = { s with queue := s.queue ++ l } := (if_neg hl).trans (if_pos hroom)

theorem queueBatch_noRoom (hl : l ≠ []) (hroom : Config.queueCapacity - s.queue.length < l.length + 1) :
    queueBatch h l s = recordGap h s := (if_neg hl).trans (if_neg (by omega))

/-- A last gap entry that ends just before h and is not at its limit grows by one. -/
theorem recordGap_extends (hlast : s.queue.getLast? = some (.gap g)) (hadj : g.endCount = h.count)
    (hlim : g.count < Config.gapLimit) : recordGap h s = setLastGap g (g.count + 1) s := by
  unfold recordGap
  simp only [hlast]
  exact if_pos ⟨hadj, hlim⟩

/-- A gap entry starts when an entry is free and no last gap entry can be extended by one. -/
theorem recordGap_starts (hfree : s.queue.length < Config.queueCapacity)
    (hno : ∀ g, s.queue.getLast? = some (.gap g) → ¬ (g.endCount = h.count ∧ g.count < Config.gapLimit)) :
    recordGap h s = appendGap h 1 s := by
  unfold recordGap
  split
  · next g hlast => rw [if_neg (hno g hlast), if_pos hfree]
  all_goals exact if_pos hfree

/-- In a full queue the last gap entry grows up to h, across the half-hours between. -/
theorem recordGap_full (hfull : Config.queueCapacity ≤ s.queue.length) (hlast : s.queue.getLast? = some (.gap g))
    (hbefore : g.endCount < h.count) : recordGap h s = setLastGap g (h.count + 1 - g.start.count) s := by
  unfold recordGap
  simp only [hlast]
  rw [if_neg fun hadj => hbefore.ne hadj.1, if_neg hfull.not_gt]

end

/-! ## The close -/

/-- The restart of the accumulators and HALF_HOUR_CLOSED change nothing that the engine's choice reads. -/
theorem closeHalfHour_takeUp (h : HalfHourStamp) (s : State) :
    closeHalfHour h s = takeUp .engine { s with
      queue := (closeHalfHour h s).queue
      accumulators := Vector.replicate 48 .empty
      counts := Vector.replicate 4 .zero
      events := (closeHalfHour h s).events } := by
  have commutes (t : State) : raiseEvent .halfHourClosed h.hh (restartHalfHour (takeUp .engine t)) =
      takeUp .engine { t with
        accumulators := Vector.replicate 48 .empty
        counts := Vector.replicate 4 .zero
        events := t.events.record .halfHourClosed h.hh } := rfl
  rw [closeHalfHour_queue, closeHalfHour_events, closeHalfHour_eq, commutes, queueBatch_frame]

/-- Settles O14: the close by the offer of its batch, and the offer by the room left and the last entry of the queue. -/
theorem halfHourCloseOffersBatch : Obligations.HalfHourCloseOffersBatch := by
  intro h s
  have starts (hroom : batch s h ≠ [] ∧ 128 - s.queue.length < (batch s h).length + 1) (hfree : s.queue.length < 128)
      (hno : ∀ g, s.queue.getLast? = some (.gap g) → ¬ (g.endCount = h.count ∧ g.count < Config.gapLimit)) :
      queueBatch h (batch s h) s = appendGap h 1 s :=
    (queueBatch_noRoom hroom.1 hroom.2).trans (recordGap_starts hfree hno)
  dsimp only
  refine ⟨closeHalfHour_takeUp h s, ?_⟩
  rw [closeHalfHour_queue, closeHalfHour_events]
  refine ⟨fun hempty => ?_, fun hne hroom => ?_, fun g hroom hlast hadj hlim => ?_, fun g hroom hfree hlast hno => ?_,
    fun hroom hfree hno => ?_, fun g hroom hfull hlast hbefore => ?_⟩
  · rw [hempty, queueBatch_empty]
    exact ⟨rfl, rfl⟩
  · rw [queueBatch_fits hne hroom]
    exact ⟨rfl, rfl⟩
  · rw [queueBatch_noRoom hroom.1 hroom.2, recordGap_extends hlast hadj hlim]
    exact ⟨rfl, rfl⟩
  · rw [starts hroom hfree fun g' hlast' hext => ?_]
    · exact ⟨rfl, rfl⟩
    · cases hlast.symm.trans hlast'
      exact hno.elim (· hext.1) hext.2.not_ge
  · rw [starts hroom hfree fun g hlast => absurd hlast (hno g)]
    exact ⟨rfl, rfl⟩
  · have count : h.count + 1 - g.start.count = h.count - g.start.count + 1 := by omega
    rw [queueBatch_noRoom hroom.1 hroom.2, recordGap_full hfull hlast hbefore, count]
    exact ⟨rfl, rfl⟩

end Sys2Proof.Machine
end

section
/-! SUPPORT. What was taken before comes first: the requests in hand ahead of a later event, request or absorption (04 R77, R78,
R81, 06 R110, 07 R115, R117, 10 R170, R171; assumption 25). -/

namespace Sys2Proof.Machine

/-! # The requests in hand that were taken before a later event, request or absorption. -/

section
variable {s : State} {o x : Owner} {p : Port} {c : RequestCode} {r : Request} {e : Entry}

/-! ## Two completions leave none to complete (10 R170) -/

/-- A completion changes nothing, or answers the request that waited at one port and leaves the other port as it is. -/
theorem completeInHand_cases (q : Owner) (s : State) :
    completeInHand q s = s ∨ ∃ p, (∃ o, (waitingAt s o p).isSome) ∧ ((completeInHand q s).common p).area.state = .done ∧
      ∀ p', p' ≠ p → (completeInHand q s).common p' = s.common p' := by
  unfold completeInHand
  split
  · next p c r h =>
    obtain ⟨-, hwait, -⟩ := handRequest_iff.mp h
    refine .inr ⟨p, ⟨q, by rw [hwait]; rfl⟩, ?_, fun p' hne => ?_⟩
    · rw [common_finish]
      exact answer_done ..
    · rw [common_finish]
      exact answer_common_ne hne ..
  · exact .inl rfl

/-- With both areas DONE nothing is left to complete. -/
theorem completeInHand_done (hdone : ∀ p, (s.common p).area.state = .done) (q : Owner) : completeInHand q s = s := by
  rcases completeInHand_cases q s with same | ⟨p, ⟨o, hwait⟩, -, -⟩
  · exact same
  · rw [waitingAt_done (hdone p)] at hwait
    cases hwait

/-- There are two ports only. -/
theorem port_eq_of_ne {p q p' : Port} (hp : p ≠ p') (hq : q ≠ p') : p = q := by
  cases p' with
  | a => cases p <;> cases q <;> trivial
  | b => cases p <;> cases q <;> trivial

/-- Two completions that change the state answer both ports. -/
theorem completeInHand_twice {q q' : Owner} (hfirst : completeInHand q s ≠ s)
    (hsecond : completeInHand q' (completeInHand q s) ≠ completeInHand q s) (p : Port) :
    ((completeInHand q' (completeInHand q s)).common p).area.state = .done := by
  obtain ⟨p₁, -, hdone₁, -⟩ := (completeInHand_cases q s).resolve_left hfirst
  obtain ⟨p₂, ⟨o, hwait⟩, hdone₂, hother⟩ := (completeInHand_cases q' _).resolve_left hsecond
  by_cases hp : p = p₂
  · rw [hp]
    exact hdone₂
  · have apart : p₁ ≠ p₂ := by
      rintro rfl
      rw [waitingAt_done hdone₁] at hwait
      cases hwait
    rw [hother p hp, port_eq_of_ne hp apart]
    exact hdone₁

/-- What an owner finds completed after two completions stays so. -/
theorem completeEarlierFirst_thrice (x : Owner) (s : State) :
    completeEarlierFirst x (completeEarlierFirst x (completeEarlierFirst x s)) =
      completeEarlierFirst x (completeEarlierFirst x s) := by
  by_cases hfirst : completeEarlierFirst x s = s
  · simp only [hfirst]
  by_cases hsecond : completeEarlierFirst x (completeEarlierFirst x s) = completeEarlierFirst x s
  · simp only [hsecond]
  obtain ⟨q, -, first⟩ := (completeEarlierFirst_cases x s).resolve_left hfirst
  obtain ⟨q', -, second⟩ := (completeEarlierFirst_cases x _).resolve_left hsecond
  rcases completeEarlierFirst_cases x (completeEarlierFirst x (completeEarlierFirst x s)) with same | ⟨q'', -, third⟩
  · exact same
  · rw [second] at hsecond
    rw [first] at hfirst hsecond
    rw [third, second, first]
    exact completeInHand_done (completeInHand_twice hfirst hsecond) q''

/-- Behind the first of them, an owner finds completed what it finds completed anyway. -/
theorem completeEarlier_behind (x : Owner) (s : State) : completeEarlier x s = completeEarlier x (completeEarlierFirst x s) :=
  (completeEarlierFirst_thrice x s).symm

/-! ## Events find everything in hand completed (04 R77, R78, R81) -/

/-- Behind the request in hand that was taken first, an event finds what it finds anyway. -/
theorem completeAll_behind {rest : List Owner} (horder : s.handOrder = o :: rest) :
    completeAll (completeInHand o s) = completeAll s := by
  rw [← completeFirst_of_order horder]
  exact completeFirst_thrice s

/-! ## The first request ahead that crosses owners (06 R110, 07 R115) -/

theorem handCrosses_of_request (h : handRequest s o = some (p, c, r)) : handCrosses s o = c.crossesOwners := by
  unfold handCrosses
  rw [h]

theorem handCrosses_false (h : ∀ p c r, inHand s o = some p → waitingAt s o p = some r → r.code = RequestCode.byte c →
    c.crossesOwners = false) : handCrosses s o = false := by
  unfold handCrosses
  split
  · next p c r hr =>
    obtain ⟨hhand, hwait, hcode⟩ := handRequest_iff.mp hr
    exact h p c r hhand hwait (byte_ofByte hcode)
  · rfl

/-- The first request in hand that crosses owners is completed ahead of an owner that comes behind it, or that has no request
in hand. -/
theorem completeEarlierFirst_eq {before rest : List Owner} (horder : s.handOrder = before ++ o :: rest)
    (hbefore : ∀ y ∈ before, handCrosses s y = false) (hcross : handCrosses s o = true) (hx : x ∉ before) (hne : x ≠ o) :
    completeEarlierFirst x s = completeInHand o s := by
  have others : ∀ y ∈ before, (y != x) = true := fun y hy => by
    rw [bne_iff_ne]
    rintro rfl
    exact hx hy
  have found : (s.handOrder.takeWhile (· != x)).find? (handCrosses s) = some o := by
    rw [horder, List.takeWhile_append_of_pos others, List.takeWhile_cons_of_pos (p := (· != x)) (bne_iff_ne.mpr hne.symm),
      List.find?_append, List.find?_eq_none.mpr (fun y hy => Bool.eq_false_iff.mp (hbefore y hy)), Option.none_or,
      List.find?_cons_of_pos hcross]
  unfold completeEarlierFirst
  rw [found]

/-! ## Requests behind a completion (10 R170) -/

theorem nextPort_of_inHand (h : inHand s o = some p) : nextPort s o = some p := by
  have occupied : Occupied s o := by
    by_contra hfree
    rw [inHand_of_not_occupied hfree] at h
    cases h
  rw [← inHand_takeUp_self, takeUp_occupied occupied, h]

/-- A request in hand is the one its owner completes next. -/
theorem takenRequest_of_inHand (h : handRequest s c.owner = some (p, c, r)) : takenRequest s c = some (p, r) := by
  obtain ⟨hhand, hwait, hcode⟩ := handRequest_iff.mp h
  simp only [takenRequest, nextPort_of_inHand hhand, hwait, if_pos (byte_ofByte hcode)]

/-- Behind a completion at another owner a request is the one its owner completes next still. -/
theorem Hands.takenRequest_kept {b : Prop} (hs : Hands b none s) {q : Owner} (hq : q ≠ c.owner)
    (h : takenRequest s c = some (p, r)) : takenRequest (completeInHand q s) c = some (p, r) :=
  takenRequest_of_inHand (hs.request_kept hq (hs.request_inHand h))

/-! ## The queue head behind a completion (06 R104, R109) -/

/-- A request only appends to the queue: RESUME its outage gap. -/
theorem performRequest_queue (c : RequestCode) (r : Request) (s : State) :
    (performRequest c r s).Leads fun t => s.queue <+: t.queue := by
  cases h : performRequest c r s with
  | refused out => trivial
  | read v snap => trivial
  | done v t =>
    by_cases hc : c = .resume
    · subst hc
      obtain ⟨m, S, rfl | rfl⟩ := performResume_done r s v t h
      · exact List.prefix_rfl
      · exact List.prefix_append ..
    · obtain ⟨hqueue, -⟩ := (performRequest_done c r s v t h).2 hc
      show s.queue <+: t.queue
      rw [hqueue]

theorem answer_queue (p : Port) (code : Byte) (c : RequestCode) (r : Request) (s : State) :
    s.queue <+: (answer p code (performRequest c r s) s).queue := by
  have performed := performRequest_queue c r s
  cases h : performRequest c r s with
  | refused out =>
    rw [answer, complete_queue]
  | done v t =>
    rw [h] at performed
    rw [answer, complete_queue]
    exact performed
  | read v snap =>
    rw [answer, complete_queue, setView_queue]

theorem completeInHand_head (h : s.queue.head? = some e) (q : Owner) : (completeInHand q s).queue.head? = some e := by
  unfold completeInHand
  split
  · next p c r _ =>
    obtain ⟨tail, happend⟩ := answer_queue p r.code c r s
    rw [finish_queue, ← happend, List.head?_append, h]
    rfl
  · exact h

theorem claimedHead_of_inFlight (h : s.inFlight = some .entry) : claimedHead s = s.queue.head? := by
  simp only [claimedHead, nextClaim, h, Option.some_or]

/-- Behind a completion at another owner the queue head in flight is in flight still. -/
theorem Hands.claimedHead_kept {b : Prop} (hs : Hands b none s) {q : Owner} (hq : q ≠ .engine)
    (hf : s.inFlight = some .entry) (h : s.queue.head? = some e) : claimedHead (completeInHand q s) = some e := by
  rw [claimedHead_of_inFlight (hs.flight_kept hq hf)]
  exact completeInHand_head h q

/-- The row of an absorption absorbs the queue head that is in flight. -/
theorem exec_absorptionRow (h : claimedHead s = some e) : exec (absorptionRow e) s = .next (absorbHead (absorbing e) s) := by
  cases e with
  | result e =>
    show execResultAbsorption s = _
    rw [execResultAbsorption, h]
    rfl
  | stack e =>
    show execStackEntryAbsorption s = _
    rw [execStackEntryAbsorption, h]
    rfl
  | dayEnd Y D =>
    show execDayEndAbsorption s = _
    rw [execDayEndAbsorption, h]
    rfl
  | yearEnd Y =>
    show execYearEndAbsorption s = _
    rw [execYearEndAbsorption, h]
    rfl
  | gap g =>
    show execGapWalk s = _
    rw [execGapWalk, h]
    rfl

/-- The order of taking does not name an engine that has the queue head in flight. -/
theorem Hands.engine_unlisted {b : Prop} (hs : Hands b none s) (hf : s.inFlight = some .entry) : .engine ∉ s.handOrder := by
  rw [hs.order .engine, inHand_engine_none.mpr (.inr hf)]
  exact nofun

/-! ## Rows behind what was taken before -/

/-- A request row acts as on a state with the same request next behind which its owner finds the same completed. -/
theorem exec_requestRow_congr {t : State} (hs : takenRequest s c = some (p, r)) (ht : takenRequest t c = some (p, r))
    (h : completeEarlier c.owner s = completeEarlier c.owner t) : exec (requestRow c) s = exec (requestRow c) t := by
  rw [exec_requestRow, exec_requestRow, run_behind hs, run_behind ht, h]

/-- An absorption acts as on a state with the same queue head in flight behind which the engine finds the same completed. -/
theorem exec_absorptionRow_congr {t : State} (hs : claimedHead s = some e) (ht : claimedHead t = some e)
    (h : completeEarlier .engine s = completeEarlier .engine t) : exec (absorptionRow e) s = exec (absorptionRow e) t := by
  rw [exec_absorptionRow hs, exec_absorptionRow ht, absorbHead, absorbHead, h]

end

/-- Settles O30: the events by the two completions that leave nothing to complete, a later request and an absorption by the
first request ahead of them that crosses owners. -/
theorem requestsInHandComeFirst : Obligations.RequestsInHandComeFirst := by
  refine ⟨fun s c p r h => h.exec_eq, fun s o rest p c r horder hhand hwait hcode => ?events,
    fun s before rest o p c r hlaw horder hbefore hhand hwait hcode hcross => ?later⟩
  case events =>
    obtain rfl := owner_of_waiting hwait hcode
    dsimp only
    rw [← completeInHand_eq hhand hwait hcode]
    have settled := (completeAll_behind horder).symm
    exact ⟨congrArg (fun t => Host.Outcome.next (takePulse t)) settled,
      congrArg (fun t => Host.Outcome.next (expireSupervision t)) settled,
      congrArg (fun t => Host.Outcome.next (expireGrace t)) settled,
      fun i level => congrArg (fun t => Host.Outcome.next (changeLine i level t)) settled,
      fun i => congrArg (fun t => Host.Outcome.next (expireDebounce i t)) settled,
      fun v => congrArg (portWrite .a 0x6C v) settled⟩
  case later =>
    obtain rfl := owner_of_waiting hwait hcode
    dsimp only
    rw [← completeInHand_eq hhand hwait hcode]
    have hands : Hands False none s := handLaw_iff.mp hlaw
    have crosses := (handCrosses_of_request (handRequest_eq hhand hwait hcode)).trans hcross
    have behind {x : Owner} (hx : x ∉ before) (hne : x ≠ c.owner) :
        completeEarlier x s = completeEarlier x (completeInHand c.owner s) := by
      rw [completeEarlier_behind,
        completeEarlierFirst_eq horder (fun y hy => handCrosses_false (hbefore y hy)) crosses hx hne]
    refine ⟨fun d p' r' hd hne _ htaken => ?_, fun e hf hhead => ?_⟩
    · exact exec_requestRow_congr htaken (hands.takenRequest_kept hne.symm htaken) (behind hd hne)
    · have unlisted : Owner.engine ∉ before ++ c.owner :: rest := horder ▸ hands.engine_unlisted hf
      obtain ⟨hx, hne, -⟩ : Owner.engine ∉ before ∧ Owner.engine ≠ c.owner ∧ Owner.engine ∉ rest := by
        simpa using unlisted
      exact exec_absorptionRow_congr ((claimedHead_of_inFlight hf).trans hhead)
        (hands.claimedHead_kept hne.symm hf hhead) (behind hx hne)

end Sys2Proof.Machine
end

section
/-! SUPPORT. The account engine (07): what it and the other owners take next, the absorption of a VALID result, the close of a
day and of a year, and the walk of a gap. -/

namespace Sys2Proof.Machine

/-! # What an owner has in hand and what it takes next (07 R114, R116, R118, 10 R170, R173). -/

section
variable {s : State} {o : Owner} {p : Port} {c : RequestCode} {r : Request}

/-! ## The candidates -/

theorem preferredPort_b (h : (waitingAt s o .b).isSome) : preferredPort s o = some .b := if_pos h

theorem preferredPort_a (hb : waitingAt s o .b = none) (h : (waitingAt s o .a).isSome) : preferredPort s o = some .a := by
  simp [preferredPort, hb, h]

theorem preferredPort_none (hb : waitingAt s o .b = none) (ha : waitingAt s o .a = none) : preferredPort s o = none := by
  simp [preferredPort, hb, ha]

theorem headClaim_waiting (h : s.queue ≠ []) : headClaim s = some .entry := by
  simp [headClaim, h]

theorem requestClaim_some (h : preferredPort s .engine = some p) : requestClaim s = some (.request p) := by
  simp [requestClaim, h]

theorem requestClaim_none (h : preferredPort s .engine = none) : requestClaim s = none := by
  simp [requestClaim, h]

/-! ## The choice of the engine -/

theorem nextClaim_inFlight {x : Claim} (h : s.inFlight = some x) : nextClaim s = some x := by
  rw [nextClaim, h, Option.some_or]

theorem nextClaim_idle (h : s.inFlight = none) : nextClaim s = chosenClaim s := by
  rw [nextClaim, h, Option.none_or]

/-- Behind a queue head the request comes first. -/
theorem chosenClaim_behind_entry (hp : s.part = .running) (hl : s.lastClaim = .entry) :
    chosenClaim s = (requestClaim s).or (headClaim s) := by
  simp only [chosenClaim, hp, hl]
  rfl

/-- Behind a request, and at first, the queue head comes first. -/
theorem chosenClaim_behind_request (hp : s.part = .running) (hl : s.lastClaim ≠ .entry) :
    chosenClaim s = (headClaim s).or (requestClaim s) := by
  cases last : s.lastClaim <;> simp only [chosenClaim, hp, last]
  case entry => exact absurd last hl
  case request => rfl
  case none => rfl

/-- With the queue empty the engine takes the request, if there is one. -/
theorem chosenClaim_queue_empty (hp : s.part = .running) (hq : s.queue = []) : chosenClaim s = requestClaim s := by
  have head := headClaim_none.mpr hq
  rcases chosenClaim_running hp with order | order
  · rw [order, head, Option.none_or]
  · rw [order, head, Option.or_none]

/-- With no request waiting the engine takes the queue head, if there is one. -/
theorem chosenClaim_no_request (hp : s.part = .running) (hr : preferredPort s .engine = none) :
    chosenClaim s = headClaim s := by
  have request := requestClaim_none hr
  rcases chosenClaim_running hp with order | order
  · rw [order, request, Option.or_none]
  · rw [order, request, Option.none_or]

/-! ## The port completed next -/

theorem nextPort_engine_iff : nextPort s .engine = some p ↔ nextClaim s = some (.request p) := by
  unfold nextPort
  rcases nextClaim s with _ | _ | q <;> simp

/-- An idle Stack Monitor or Period Clock completes next what it chooses. -/
theorem nextPort_idle (ho : o ≠ .engine) (h : inHand s o = none) : nextPort s o = chosenPort s o := by
  cases o with
  | engine => exact absurd rfl ho
  | monitor =>
    have idle : s.monitorHand = none := h
    rw [nextPort, idle, Option.none_or]
  | clock =>
    have idle : s.clockHand = none := h
    rw [nextPort, idle, Option.none_or]

theorem chosenPort_running (hp : s.part = .running) : chosenPort s o = preferredPort s o := if_pos hp

theorem chosenPort_stop (hp : s.part ≠ .running) : chosenPort s o = none := if_neg hp

theorem chosenPort_none (h : preferredPort s o = none) : chosenPort s o = none := by
  unfold chosenPort
  split
  · exact h
  · rfl

/-- A request row takes the request that its owner's next port has latched under its code. -/
theorem takenRequest_iff : takenRequest s c = some (p, r) ↔
    nextPort s c.owner = some p ∧ waitingAt s c.owner p = some r ∧ r.code = c.byte := by
  unfold takenRequest
  cases hn : nextPort s c.owner with
  | none => simp
  | some q =>
    dsimp only
    constructor
    · intro h
      split at h
      · next x hw =>
        split at h
        · next hc => cases h; exact ⟨rfl, hw, hc⟩
        · cases h
      · cases h
    · rintro ⟨hq, hw, hc⟩
      cases hq
      rw [hw]
      exact if_pos hc

end

/-- Settles O29: the engine by its two candidates, the other owners by the preferred port. -/
theorem ownersChooseInOrder : Obligations.OwnersChooseInOrder := by
  refine ⟨fun s c h => nextClaim_inFlight h, fun s hidle => ?engine, fun s p => nextPort_engine_iff,
    fun s o ho => ⟨fun p h => nextPort_of_inHand h, fun hidle => ?other⟩, fun s o p r => waitingAt_iff s o p r,
    fun s c p r => ?row, fun s => ?taking⟩
  case engine =>
    rw [nextClaim_idle hidle]
    refine ⟨fun hp => ⟨fun hl hq => ?_, fun hl hb => ?_, fun hl hb ha => ?_, fun hb ha hq => ?_, fun hq hb => ?_,
      fun hq hb ha => ?_, fun hq hb ha => ?_⟩, fun hp hq => ?_, fun hp hq => ?_, chosenClaim_stopped⟩
    · rw [chosenClaim_behind_request hp hl, headClaim_waiting hq, Option.some_or]
    · rw [chosenClaim_behind_entry hp hl, requestClaim_some (preferredPort_b hb), Option.some_or]
    · rw [chosenClaim_behind_entry hp hl, requestClaim_some (preferredPort_a hb ha), Option.some_or]
    · rw [chosenClaim_no_request hp (preferredPort_none hb ha), headClaim_waiting hq]
    · rw [chosenClaim_queue_empty hp hq, requestClaim_some (preferredPort_b hb)]
    · rw [chosenClaim_queue_empty hp hq, requestClaim_some (preferredPort_a hb ha)]
    · rw [chosenClaim_queue_empty hp hq, requestClaim_none (preferredPort_none hb ha)]
    · rw [chosenClaim_stopping hp, headClaim_waiting hq]
    · rw [chosenClaim_stopping hp, headClaim_none.mpr hq]
  case other =>
    rw [nextPort_idle ho hidle]
    exact ⟨fun hp hb => (chosenPort_running hp).trans (preferredPort_b hb),
      fun hp hb ha => (chosenPort_running hp).trans (preferredPort_a hb ha),
      fun hb ha => chosenPort_none (preferredPort_none hb ha), chosenPort_stop⟩
  case row =>
    rw [takenRequest_iff, waitingAt_iff]
    constructor
    · rintro ⟨hn, ⟨hpending, hlatched, -⟩, hc⟩
      exact ⟨hn, hpending, hlatched, hc⟩
    · rintro ⟨hn, hpending, hlatched, hc⟩
      exact ⟨hn, ⟨hpending, hlatched, c, hc ▸ ofByte_byte c, rfl⟩, hc⟩
  case taking =>
    exact ⟨fun p => inHand_engine_iff, rfl, rfl, fun o => by cases o <;> rfl, rfl, rfl, rfl⟩

/-! # The day outcome, the day average and the verdict (07 R127, 01 R15). -/

section
variable {t : Terms} {d : DayPart}

/-- The half-hours of a day that the plant operated, the gap half-hours among them (07 R127). -/
def DayPart.operating (d : DayPart) : Nat := d.hhValid + d.hhInvalid + d.hhAbnormal + d.hhGap

/-- The half-hours of a day without a usable result, the gap half-hours among them (07 R127). -/
def DayPart.bad (d : DayPart) : Nat := d.hhInvalid + d.hhGap

theorem dayOutcome_excluded (h : d.operating = 0) : dayOutcome t d = .excluded := if_pos h

theorem dayOutcome_invalid (h : d.operating ≠ 0) (hb : t.maxInvalid < d.bad ∨ (d.hhValid = 0 ∧ d.hhAbnormal = 0)) :
    dayOutcome t d = .invalid := (if_neg h).trans (if_pos hb)

theorem dayOutcome_usable (h : d.operating ≠ 0) (hb : ¬ (t.maxInvalid < d.bad ∨ (d.hhValid = 0 ∧ d.hhAbnormal = 0))) :
    dayOutcome t d = if d.hhValid = 0 then .abnormalOnly else .valid := (if_neg h).trans (if_neg hb)

/-- The rounded quotient of a sum that is not negative lies within half a divisor, a half upwards (05 R90). -/
theorem roundDiv_nat (a : Nat) {n : Nat} (hn : 0 < n) :
    2 * a < (2 * (roundDiv a n).toNat + 1) * n ∧ 2 * (roundDiv a n).toNat * n ≤ 2 * a + n := by
  have quotient : (roundDiv a n).toNat = (2 * a + n) / (2 * n) := by
    rw [roundDiv, if_neg (Int.not_lt.mpr (Int.natCast_nonneg a)), Int.natAbs_natCast, Int.toNat_natCast]
  rw [quotient]
  have below := Nat.div_mul_le_self (2 * a + n) (2 * n)
  have above := Nat.lt_div_mul_add (a := 2 * a + n) (b := 2 * n) (by omega)
  constructor <;> linarith

theorem pctMet_iff {y : YearPart} :
    (verdictOf t y).pctMet = true ↔ ∀ l ∈ t.pct, y.hhOverPct * 1000 ≤ l.share * y.hhValid := by
  unfold verdictOf
  cases t.pct <;> simp

end

/-- Settles O26: the outcome by the cases in their order, the average by its rounding, the findings one by one. -/
theorem dayOutcomeAndVerdict : Obligations.DayOutcomeAndVerdict := by
  refine ⟨fun t d => ⟨dayOutcome_excluded, dayOutcome_invalid, fun hop hb hn hv => ?abnormal, fun hop hb hv => ?valid,
    fun hv => roundDiv_nat d.sum (Nat.pos_of_ne_zero hv)⟩,
    fun t y => ⟨by simp [verdictOf], pctMet_iff, by simp [verdictOf], by simp [verdictOf]⟩⟩
  case abnormal =>
    rw [dayOutcome_usable hop (not_or.mpr ⟨Nat.not_lt.mpr hb, hn⟩), if_pos hv]
  case valid =>
    rw [dayOutcome_usable hop (not_or.mpr ⟨Nat.not_lt.mpr hb, fun h => hv h.1⟩), if_neg hv]

/-! # The absorption of a VALID result with the abnormal flag clear (07 R121 to R123, 08 R141 to R145). -/

/-! ## The tallies (07 R121, R123) -/

theorem countValid_eq_validSide (t : Terms) (v : Nat) (h : HalfHourStamp) (c : CurrentSide) :
    countValid t v h c = validSide t v h c := by
  have highest : some (maxWith c.year.maxHalfHour v h) = (validSide t v h c).year.maxHalfHour := by
    unfold maxWith validSide
    cases c.year.maxHalfHour with
    | none => rfl
    | some m => exact apply_ite some ..
  unfold countValid
  rw [highest]
  unfold validSide
  cases t.short <;> cases t.pct <;> simp [Bool.toNat, Bool.cond_decide]

/-! ## The EXCEEDANCE episode (07 R122, 08 R141 to R144) -/

section
variable {s : State} {i : SlotNo} {u : Subject} {t : Terms} {v : Nat}

theorem validEpisode_unlimited (h : t.short = none) (stamp : HalfHourStamp) : validEpisode i t v stamp s = s := by
  rw [validEpisode, h]

theorem validEpisode_over (h : ∃ l ∈ t.short, l < v) (stamp : HalfHourStamp) :
    validEpisode i t v stamp s = qualify (.exceedance i) stamp (some v) s := by
  obtain ⟨l, hl, hv⟩ := h
  rw [validEpisode, Option.mem_def.mp hl]
  exact if_pos hv

theorem validEpisode_within (h : ∃ l ∈ t.short, v ≤ l) (stamp : HalfHourStamp) :
    validEpisode i t v stamp s = endEpisodes (· == .exceedance i) stamp s := by
  obtain ⟨l, hl, hv⟩ := h
  rw [validEpisode, Option.mem_def.mp hl]
  exact if_neg (Nat.not_lt.mpr hv)

theorem Episode.openFor_iff {ep : Episode} : (ep.isOpen && ep.subject == u) = true ↔ ep.ended = none ∧ ep.subject = u := by
  simp [Episode.isOpen]

/-- A qualifying half-hour with a value counts into the OPEN episode of the subject, its peak included. -/
theorem qualify_extends_value (h : (openEpisode s u).isSome) (stamp : HalfHourStamp) (v : Nat) :
    qualify u stamp (some v) s = { s with episodes := s.episodes.map (fun ep =>
      if ep.ended = none ∧ ep.subject = u then
        { ep with length := min 65535 (ep.length + 1), peak := ep.peak.map (max · v) }
      else ep) } := by
  have extended (ep : Episode) :
      ep.extend (some v) = { ep with length := min 65535 (ep.length + 1), peak := ep.peak.map (max · v) } := by
    cases hp : ep.peak <;> simp [Episode.extend, hp]
  simp only [qualify, if_pos h, extended, Episode.openFor_iff]

theorem openNew_slot_room (h : s.episodes.length < 32) (stamp : HalfHourStamp) (v : Option Nat) :
    openNew (.exceedance i) stamp v s =
      raiseEvent .shortOpened (freeNumber (s.episodes.map (·.number)) 31 s.episodeCounter)
        { s with
          episodes := s.episodes ++ [⟨freeNumber (s.episodes.map (·.number)) 31 s.episodeCounter, .exceedance i,
            stamp, none, 1, v, false, none⟩]
          episodeCounter := nextNumber (freeNumber (s.episodes.map (·.number)) 31 s.episodeCounter) } := by
  rw [openNew, if_pos (show s.episodes.length < Config.listCapacity from h)]

theorem openNew_slot_full (h : 32 ≤ s.episodes.length) (stamp : HalfHourStamp) (v : Option Nat) :
    openNew (.exceedance i) stamp v s = raiseEvent .listFull i (s.updCurrent i (·.addMark .episodeUntracked)) := by
  rw [openNew, if_neg (show ¬ s.episodes.length < Config.listCapacity from Nat.not_lt.mpr h)]

end

/-! ## The absorption -/

/-- The state in which only the tallies of a VALID half-hour with validated value v have been counted, from side c. -/
def validCounted (e : ResultEntry) (v : Nat) (c : CurrentSide) (s : State) : State :=
  s.setAccount e.slot ((s.account e.slot).withSide (validSide (s.account e.slot).terms v e.stamp c))

section
variable {s : State} {e : ResultEntry} {raw : Int} {v : Nat} {c : CurrentSide}

theorem current_validCounted :
    ((validCounted e v c s).account e.slot).current = some (validSide (s.account e.slot).terms v e.stamp c) := by
  rw [validCounted, account_setAccount_self]
  rfl

/-- The internal flag's counting where the side's account has been replaced, and other parts of the state beside it. -/
theorem absorbInternal_sided {t : State} {a : Account} (h : t.accounts = put s.accounts e.slot (a.withSide c)) :
    absorbInternal e t = { t with accounts := put s.accounts e.slot (a.withSide (internalNoted e c)) } := by
  have replaced : t = State.setAccount { t with accounts := s.accounts } e.slot (a.withSide c) := by
    rw [State.setAccount, ← h]
  rw [replaced, absorbInternal_setSide]
  rfl

/-- The tallies first, then the episode, then the internal flag. -/
theorem absorbResult_valid (hcls : e.cls = .valid raw) (hab : e.abnormal = false)
    (hc : (s.account e.slot).current = some c) (hv : (raw - (s.account e.slot).terms.ci).toNat = v) :
    absorbResult e s =
      absorbInternal e (validEpisode e.slot (s.account e.slot).terms v e.stamp (validCounted e v c s)) := by
  have counted : s.updCurrent e.slot (countValid (s.account e.slot).terms v e.stamp) = validCounted e v c s := by
    rw [updCurrent_eq hc, countValid_eq_validSide]
    rfl
  rw [absorbResult_sided hc]
  simp only [absorbClass, hcls, hab, validated, hv, counted]

/-- No limit, or a value at or below it with no OPEN episode: only the tallies. -/
theorem validEpisode_unconcerned {t : Terms} (h : t.short = none ∨
      ((∃ l ∈ t.short, v ≤ l) ∧ openEpisode s (.exceedance e.slot) = none)) (stamp : HalfHourStamp) :
    validEpisode e.slot t v stamp s = s := by
  rcases h with hshort | ⟨hwithin, hnone⟩
  · exact validEpisode_unlimited hshort _
  · exact (validEpisode_within hwithin _).trans (endEpisodes_none (no_open hnone))

end

/-- Settles O20: the tallies in every case, the episode case by case. -/
theorem validResultAbsorbed : Obligations.ValidResultAbsorbed := by
  intro s e raw c h hcls hab hc
  dsimp only
  generalize hv : (raw - (s.account e.slot).terms.ci).toNat = v
  rw [h.exec_result, absorbResult_valid hcls hab hc hv]
  refine ⟨fun hcase => ?unconcerned, fun hover hopen => ?extended, fun hover hnone hroom => ?opened,
    fun hover hnone hfull => ?full, fun ep hwithin hep => ?ended⟩
  case unconcerned =>
    rw [validEpisode_unconcerned (s := validCounted e v c s) hcase, validCounted, absorbInternal_setSide]
  case extended =>
    rw [validEpisode_over hover, qualify_extends_value (s := validCounted e v c s) hopen, absorbInternal_sided rfl]
    rfl
  case opened =>
    rw [validEpisode_over hover, qualify_opens (s := validCounted e v c s) hnone,
      openNew_slot_room (s := validCounted e v c s) hroom, absorbInternal_sided rfl]
    rfl
  case full =>
    rw [validEpisode_over hover, qualify_opens (s := validCounted e v c s) hnone,
      openNew_slot_full (s := validCounted e v c s) hfull, updCurrent_eq current_validCounted, validCounted,
      setAccount_setAccount, account_setAccount_self, absorbInternal_sided rfl]
    rfl
  case ended =>
    refine ⟨_, rfl, ?_⟩
    rw [validEpisode_within hwithin, endEpisodes_single (s := validCounted e v c s) hep current_validCounted,
      validCounted, setAccount_setAccount, account_setAccount_self, absorbInternal_sided rfl]
    exact ⟨account_setAccount_self .., fun j hj => account_setAccount_ne _ _ _ _ hj, rfl, rfl⟩

/-! # What a row absorbs and the state behind it (07 R116). -/

/-- With nothing ahead the row of a queue head does what the engine does with it, and removes it. -/
theorem Absorbs.exec_row {s : State} {e : Entry} (h : Absorbs s e) :
    exec (absorptionRow e) s = .next (headGone (absorbing e s)) := by
  rw [exec_absorptionRow h.1, h.absorbHead_eq]

section
variable (s : State)

theorem account_headGone (i : SlotNo) : (headGone s).account i = s.account i := rfl

theorem allowance_headGone (i : StackNo) : (headGone s).allowance i = s.allowance i := rfl

theorem headGone_accounts : (headGone s).accounts = s.accounts := rfl

theorem headGone_allowances : (headGone s).allowances = s.allowances := rfl

theorem headGone_episodes : (headGone s).episodes = s.episodes := rfl

theorem headGone_events : (headGone s).events = s.events := rfl

end

/-! # The walk of a gap (07 R135, R136) and the closes of the account engine. -/

/-! ## Slot by slot -/

/-- A run over a list of slots in which each turn changes its own account only, by a function of that account. -/
theorem account_foldl {f : SlotNo → State → State} {g : Account → Account}
    (own : ∀ i s, (f i s).account i = g (s.account i))
    (other : ∀ i j s, j ≠ i → (f i s).account j = s.account j) {l : List SlotNo} (hl : l.Nodup) (i : SlotNo) (s : State) :
    (l.foldl (fun t j => f j t) s).account i = if i ∈ l then g (s.account i) else s.account i := by
  induction l generalizing s with
  | nil => rfl
  | cons j l ih =>
    obtain ⟨fresh, rest⟩ := List.nodup_cons.mp hl
    rw [List.foldl_cons, ih rest]
    by_cases e : i = j
    · subst e
      simp [fresh, own]
    · simp [e, other j i s e]

/-! ## One covered half-hour -/

/-- A covered half-hour charged to the accounts of the charged set. -/
def chargeAll (charged : List SlotNo) (s : State) : State := charged.foldl (fun u slot => chargeGap slot u) s

/-- An account after n covered half-hours have been charged to it. -/
def Account.gapCharged (a : Account) (n : Nat) : Account :=
  if a.state = .active ∨ a.state = .frozen then { a with current := a.current.map (countGap^[n]) } else a

theorem Account.gapCharged_idle {a : Account} (h : ¬ (a.state = .active ∨ a.state = .frozen)) (n : Nat) :
    a.gapCharged n = a := if_neg h

/-- Half-hours are charged one after the other. -/
theorem Account.gapCharged_add (a : Account) (n m : Nat) : (a.gapCharged n).gapCharged m = a.gapCharged (m + n) := by
  by_cases h : a.state = .active ∨ a.state = .frozen
  · simp only [Account.gapCharged, if_pos h, Option.map_map, ← Function.iterate_add]
  · rw [gapCharged_idle h, gapCharged_idle h, gapCharged_idle h]

theorem account_chargeAll {charged : List SlotNo} (hn : charged.Nodup) (i : SlotNo) (s : State) :
    (chargeAll charged s).account i = if i ∈ charged then (s.account i).gapCharged 1 else s.account i :=
  account_foldl (g := (·.gapCharged 1)) chargeGap_own chargeGap_other hn i s

theorem chargeAll_frame (charged : List SlotNo) (s : State) :
    chargeAll charged s = { s with accounts := (chargeAll charged s).accounts } := chargeGaps_frame charged s

/-- A current side after n half-hours of a gap, one at least. -/
theorem countGap_iterate (c : CurrentSide) (n : Nat) : countGap^[n + 1] c =
    { day := { c.day with hhGap := c.day.hhGap + (n + 1) }
      year := { c.year with hhGap := c.year.hhGap + (n + 1) }
      marks := c.marks.add .gapCharged } := by
  induction n with
  | zero => rfl
  | succ n ih =>
    have again : (c.marks.add .gapCharged).add .gapCharged = c.marks.add .gapCharged := by
      simp [MarkSet.add, BitVec.or_assoc]
    rw [Function.iterate_succ_apply', ih]
    simp [countGap, CurrentSide.addMark, again, Nat.add_assoc]

theorem Account.gapCharged_side {a : Account} {c : CurrentSide} (hc : a.current = some c)
    (h : a.state = .active ∨ a.state = .frozen) (n : Nat) :
    a.gapCharged (n + 1) = a.withSide
      { c with
        day := { c.day with hhGap := c.day.hhGap + (n + 1) }
        year := { c.year with hhGap := c.year.hhGap + (n + 1) }
        marks := c.marks.add .gapCharged } := by
  rw [Account.gapCharged, if_pos h, hc, Option.map_some, countGap_iterate]
  rfl

/-! ## The walk, half-hour by half-hour -/

section
variable (charged : List SlotNo) (n : Nat) {x : HalfHourStamp} (s : State)

theorem walkGap_within_day (h : x.hh < 47) :
    walkGap charged (n + 1) x s = walkGap charged n ⟨x.year, x.day, x.hh + 1⟩ (chargeAll charged s) := by
  have notLast : x.hh ≠ 47 := by omega
  have next : x.next = ⟨x.year, x.day, x.hh + 1⟩ := if_pos h
  rw [walkGap, next]
  simp [walkHalfHour, chargeAll, notLast]

theorem walkGap_day_end (h : x.hh = 47) (hd : x.day < daysInYear x.year) :
    walkGap charged (n + 1) x s =
      walkGap charged n ⟨x.year, x.day + 1, 0⟩ (closeDay x.year x.day (chargeAll charged s)) := by
  have next : x.next = ⟨x.year, x.day + 1, 0⟩ := (if_neg (by omega)).trans (if_pos hd)
  rw [walkGap, next]
  simp [walkHalfHour, chargeAll, h, hd.ne]

theorem walkGap_year_end (h : x.hh = 47) (hd : x.day = daysInYear x.year) :
    walkGap charged (n + 1) x s = walkGap charged n ⟨x.year + 1, 1, 0⟩
      (closeYear x.year (closeDay x.year x.day (chargeAll charged s))) := by
  have next : x.next = ⟨x.year + 1, 1, 0⟩ := (if_neg (by omega)).trans (if_neg (by omega))
  rw [walkGap, next]
  simp [walkHalfHour, chargeAll, h, ← hd]

end

/-- A walk that reaches no half-hour 47 charges its half-hours and makes no close. -/
theorem walkGap_chargesOnly {charged : List SlotNo} {n : Nat} {x : HalfHourStamp} (h : x.hh + n ≤ 47) (s : State) :
    walkGap charged n x s = (chargeAll charged)^[n] s := by
  induction n generalizing x s with
  | zero => rfl
  | succ n ih =>
    rw [walkGap_within_day _ _ _ (by omega), ih (x := ⟨x.year, x.day, x.hh + 1⟩) (by dsimp only; omega)]
    rfl

theorem chargeAll_iterate_frame (charged : List SlotNo) (n : Nat) (s : State) :
    (chargeAll charged)^[n] s = { s with accounts := ((chargeAll charged)^[n] s).accounts } := by
  induction n with
  | zero => rfl
  | succ n ih => rw [Function.iterate_succ_apply', chargeAll_frame, ih]

theorem account_chargeAll_iterate {charged : List SlotNo} (hn : charged.Nodup) (n : Nat) (i : SlotNo) (s : State) :
    ((chargeAll charged)^[n + 1] s).account i =
      if i ∈ charged then (s.account i).gapCharged (n + 1) else s.account i := by
  induction n with
  | zero => exact account_chargeAll hn i s
  | succ n ih =>
    rw [Function.iterate_succ_apply', account_chargeAll hn, ih]
    split
    · rw [Account.gapCharged_add, Nat.add_comm 1]
    · rfl

/-! ## The statements about the walk -/

/-- Settles O27: no half-hour of the walk closes a day, so that its half-hours are charged and nothing else. -/
theorem gapWalkCharges : Obligations.GapWalkCharges := by
  intro s g h hn hone hday
  obtain ⟨n, hcount⟩ : ∃ n, g.count = n + 1 := ⟨g.count - 1, by omega⟩
  have walked : absorbing (.gap g) s = (chargeAll g.charged)^[n + 1] s := by
    rw [← hcount]
    exact walkGap_chargesOnly hday s
  refine ⟨_, h.exec_row, ?_⟩
  rw [walked, hcount]
  refine ⟨fun i hi c hc hstate => ?_, fun i hi => ?_, fun i hactive hfrozen => ?_,
    congrArg headGone (chargeAll_iterate_frame ..)⟩
  all_goals refine (account_chargeAll_iterate hn n i s).trans ?_
  · rw [if_pos hi, Account.gapCharged_side hc hstate]
  · rw [if_neg hi]
  · rw [Account.gapCharged_idle (not_or.mpr ⟨hactive, hfrozen⟩), ite_self]

/-- Settles O28: the rows by what they absorb, one covered half-hour by its charge and the closes behind it. -/
theorem gapWalkMakesCloses : Obligations.GapWalkMakesCloses := by
  refine ⟨fun s g h => h.exec_row, fun s Y D h => h.exec_row, fun s Y h => h.exec_row, fun charged n x s hn =>
    ⟨rfl, chargeAll charged s, fun i hi c hc hstate => ?_, fun i hi => ?_, chargeAll_frame charged s,
      walkGap_within_day charged n s, walkGap_day_end charged n s, walkGap_year_end charged n s⟩⟩
  · rw [account_chargeAll hn, if_pos hi, Account.gapCharged_side hc hstate]
  · rw [account_chargeAll hn]
    rcases hi with hout | ⟨hactive, hfrozen⟩
    · rw [if_neg hout]
    · rw [Account.gapCharged_idle (not_or.mpr ⟨hactive, hfrozen⟩), ite_self]

/-! # The events of a close (11 R176): a source raised for slots, then the source of the close itself. -/

section
variable {u v : EventUnit} {e e' : EventSource} {d : Nat}

theorem record_frame (u : EventUnit) (e : EventSource) (d : Nat) :
    u.record e d = { u with sources := (u.record e d).sources } := by
  unfold EventUnit.record
  dsimp only
  split <;> rfl

theorem record_other {n : Fin 16} (h : n ≠ e.number) (u : EventUnit) (d : Nat) :
    (u.record e d).sources.get n = u.sources.get n := by
  unfold EventUnit.record
  dsimp only
  split
  · rw [get_put, if_neg h.symm]
  · rfl

/-- What is recorded depends on the source's own record only. -/
theorem record_self_congr (h : v.sources.get e.number = u.sources.get e.number) (d : Nat) :
    (v.record e d).sources.get e.number = (u.record e d).sources.get e.number := by
  unfold EventUnit.record
  dsimp only
  rw [h]
  split
  · rw [get_put, get_put, if_pos rfl, if_pos rfl]
  · exact h

/-- A source recorded for each of the slots that satisfy p, in ascending order. -/
def recordSlots (e : EventSource) (p : SlotNo → Bool) (u : EventUnit) : EventUnit :=
  ((List.finRange 128).filter p).foldl (fun (u : EventUnit) (i : SlotNo) => u.record e i) u

theorem filter_last_eq_highest (p : SlotNo → Bool) : ((List.finRange 128).filter p).getLast? = highest p := by
  rw [List.getLast?_eq_head?_reverse, ← List.filter_reverse, List.head?_filter]
  rfl

theorem raisedForSlots_recordSlots {p : SlotNo → Bool} {raised : SlotNo → Prop} (h : ∀ i, p i = true ↔ raised i)
    (u : EventUnit) : RaisedForSlots u (recordSlots e p u) e.number raised := by
  obtain ⟨-, -, disabled, enabled⟩ := recordEach e ((List.finRange 128).filter p) u
  refine ⟨fun i hen hi hmax => ?_, fun hcase => ?_⟩
  · have last : highest p = some i :=
      find_highest ((h i).mpr hi) fun j hj => Bool.eq_false_iff.mpr (mt (h j).mp (hmax j hj))
    exact enabled i hen ((filter_last_eq_highest p).trans last)
  · rcases hcase with hoff | hnone
    · exact congrArg (·.sources.get e.number) (disabled hoff)
    · have empty : (List.finRange 128).filter p = [] :=
        List.filter_eq_nil_iff.mpr fun i _ => mt (h i).mp (hnone i)
      rw [recordSlots, empty]
      rfl

/-- The Event Unit after a close that raises e for slots and then e' for itself. -/
theorem closing_events (hnum : e.number ≠ e'.number) {p : SlotNo → Bool} {raised : SlotNo → Prop}
    (h : ∀ i, p i = true ↔ raised i) (u : EventUnit) (d : Nat) :
    let v := (recordSlots e p u).record e' d
    RaisedForSlots u v e.number raised ∧ v.sources.get e'.number = (u.record e' d).sources.get e'.number ∧
    (∀ n, n ≠ e.number → n ≠ e'.number → v.sources.get n = u.sources.get n) ∧
    v = { u with sources := v.sources } := by
  obtain ⟨frame, other, -, -⟩ := recordEach e ((List.finRange 128).filter p) u
  refine ⟨?_, record_self_congr (other _ hnum.symm) d, fun n hn hn' => (record_other hn' _ d).trans (other n hn), ?_⟩
  · unfold RaisedForSlots
    rw [record_other hnum]
    exact raisedForSlots_recordSlots h u
  · exact (record_frame ..).trans
      (congrArg (fun w : EventUnit => { w with sources := ((recordSlots e p u).record e' d).sources }) frame)

/-- The events of a run over the slots in which each turn records e for its slot when its account satisfies p, and changes
its own account only. -/
theorem events_forEach {f : SlotNo → State → State} {p : Account → Bool}
    (own : ∀ i s, (f i s).events = if p (s.account i) then s.events.record e i else s.events)
    (other : ∀ i j s, j ≠ i → (f i s).account j = s.account j) (s : State) :
    (forEach 128 f s).events = recordSlots e (fun i => p (s.account i)) s.events := by
  have run : ∀ (l : List SlotNo), l.Nodup → ∀ s : State, (l.foldl (fun t i => f i t) s).events =
      (l.filter fun i => p (s.account i)).foldl (fun (u : EventUnit) (i : SlotNo) => u.record e i) s.events := by
    intro l
    induction l with
    | nil => exact fun _ _ => rfl
    | cons i l ih =>
      intro hl s
      obtain ⟨fresh, rest⟩ := List.nodup_cons.mp hl
      have same : l.filter (fun j => p ((f i s).account j)) = l.filter fun j => p (s.account j) :=
        List.filter_congr fun j hj => by rw [other i j s (ne_of_mem_of_not_mem hj fresh)]
      rw [List.foldl_cons, ih rest, same, own, List.filter_cons]
      split <;> rfl
  exact run _ (List.nodup_finRange 128) s

end

/-! # The close of a day (07 R126 to R130). -/

/-! ## The accounts it applies to (07 R126) -/

theorem DayPart.isEmpty_iff {d : DayPart} : d.isEmpty = true ↔
    d.hhValid = 0 ∧ d.hhInvalid = 0 ∧ d.hhExcluded = 0 ∧ d.hhAbnormal = 0 ∧ d.hhGap = 0 := by
  simp [DayPart.isEmpty, and_assoc]

theorem activatedBy_iff {a : Account} {Y D : Nat} :
    activatedBy a Y D = true ↔ ∃ h, a.activatedAt = some h ∧ (h.year < Y ∨ h.year = Y ∧ h.day ≤ D) := by
  unfold activatedBy
  cases a.activatedAt <;> simp

theorem dayEndApplies_iff {a : Account} {c : CurrentSide} (hc : a.current = some c) {Y D : Nat} :
    dayEndApplies a Y D = true ↔ DayApplies a c Y D := by
  unfold DayApplies
  rw [← activatedBy_iff, ← DayPart.isEmpty_iff]
  cases hs : a.state <;> simp [dayEndApplies, hs, hc]

/-! ## The day of one account (07 R128 to R130) -/

theorem passesAllowance_iff {t : Terms} {c : CurrentSide} :
    passesAllowance t c = true ↔ dayOutcome t c.day = .invalid ∧ c.year.daysInvalid = t.allowance := by
  simp [passesAllowance]

theorem countDay_eq_yearAfterDay (y : YearPart) (t : Terms) (d : DayPart) (D : Nat) (o : DayOutcome) :
    y.countDay t d D o = yearAfterDay t y D (dayAverage d) o := by
  cases o with
  | valid =>
    have highest : some (maxDayWith y.maxDay (dayAverage d) D) = (yearAfterDay t y D (dayAverage d) .valid).maxDay := by
      unfold maxDayWith yearAfterDay
      cases y.maxDay with
      | none => rfl
      | some m => exact apply_ite some ..
    unfold YearPart.countDay
    dsimp only
    rw [highest]
    unfold yearAfterDay
    cases t.day <;> simp [Bool.toNat, Bool.cond_decide]
  | invalid => rfl
  | abnormalOnly => rfl
  | excluded => rfl

/-- The side that a day close leaves, with the day outcome and the year part of 07 R127 and R128. -/
theorem closeDaySide_eq (t : Terms) (Y D : Nat) (c : CurrentSide) : closeDaySide t Y D c =
    { day := ⟨if D = daysInYear Y then 1 else D + 1, 0, 0, 0, 0, 0, 0, 0⟩
      year := yearAfterDay t c.year D (dayAverage c.day) (dayOutcome t c.day)
      marks := if dayOutcome t c.day = .invalid ∧ c.year.daysInvalid = t.allowance then c.marks.add .allowanceExceeded
        else c.marks } := by
  rw [closeDaySide, countDay_eq_yearAfterDay]
  simp only [passesAllowance_iff]
  rfl

section
variable {Y D : Nat} {s : State} {i : SlotNo} {c : CurrentSide}

theorem closeDay_account_applies (hc : (s.account i).current = some c) (h : DayApplies (s.account i) c Y D) :
    (closeDay Y D s).account i = (s.account i).withSide (closeDaySide (s.account i).terms Y D c) := by
  rw [closeDay_account, hc]
  exact if_pos ((dayEndApplies_iff hc).mpr h)

theorem closeDay_account_stays (h : ∀ c, (s.account i).current = some c → ¬ DayApplies (s.account i) c Y D) :
    (closeDay Y D s).account i = s.account i := by
  rw [closeDay_account]
  cases hc : (s.account i).current with
  | none => rfl
  | some c => exact if_neg (mt (dayEndApplies_iff hc).mp (h c hc))

end

/-! ## The events (07 R129, R130) -/

/-- The day close of an account passes its allowance. -/
def dayRaises (Y D : Nat) (a : Account) : Bool :=
  match a.current with
  | some c => dayEndApplies a Y D && passesAllowance a.terms c
  | none => false

theorem dayRaises_iff {Y D : Nat} {a : Account} : dayRaises Y D a = true ↔ ∃ c, a.current = some c ∧
    DayApplies a c Y D ∧ dayOutcome a.terms c.day = .invalid ∧ c.year.daysInvalid = a.terms.allowance := by
  unfold dayRaises
  cases hc : a.current with
  | none => simp
  | some c => simp [dayEndApplies_iff hc, passesAllowance_iff]

theorem closeDayOf_events (Y D : Nat) (i : SlotNo) (s : State) :
    (closeDayOf Y D i s).events =
      if dayRaises Y D (s.account i) then s.events.record .allowance i else s.events := by
  unfold closeDayOf dayRaises
  dsimp only
  cases (s.account i).current with
  | none => rfl
  | some c =>
    dsimp only
    cases dayEndApplies (s.account i) Y D
    · rfl
    · exact apply_ite State.events (passesAllowance _ _ = true) _ _

theorem closeDay_events (Y D : Nat) (s : State) :
    (closeDay Y D s).events =
      (recordSlots .allowance (fun i => dayRaises Y D (s.account i)) s.events).record .dayClosed D := by
  rw [closeDay, raiseEvent_events, events_forEach (closeDayOf_events Y D) (closeDayOf_other Y D)]

/-- Settles O24: account by account, and the events by the slots whose close passes the allowance. -/
theorem dayEndClosesAccounts : Obligations.DayEndClosesAccounts := by
  intro s Y D h
  obtain ⟨raised, closed, others, frame⟩ := closing_events (e := .allowance) (e' := .dayClosed) (by decide)
    (fun i => dayRaises_iff (Y := Y) (D := D) (a := s.account i)) s.events D
  rw [← closeDay_events] at raised closed others frame
  refine ⟨headGone (closeDay Y D s), h.exec_row, ?_⟩
  rw [headGone_events]
  simp only [account_headGone]
  refine ⟨fun i c hc happ => ?_, fun i hstay => closeDay_account_stays hstay, raised, closed,
    fun n h6 h10 => others n h10 h6, ?_⟩
  · rw [closeDay_account_applies hc happ, closeDaySide_eq]
  · rw [headGone_accounts, ← frame]
    exact congrArg headGone (closeDay_frame Y D s)

/-! # The close of a year (07 R131 to R134, 08 R144 to R146, 03 R64). -/

/-! ## The end of the OPEN EXCEEDANCE episodes (08 R144 to R146) -/

/-- The OPEN EXCEEDANCE episodes of a slot. -/
def openExceedances (i : SlotNo) (l : List Episode) : List Episode :=
  l.filter fun e => e.isOpen && e.subject == .exceedance i

theorem foldedSide_cons (e : Episode) (l : List Episode) : foldedSide (e :: l) = foldedSide l ∘ (·.fold e) := by
  funext c
  simp [foldedSide, CurrentSide.fold, Nat.add_comm, Nat.add_left_comm]

theorem account_foldEpisode (e : Episode) (s : State) (i : SlotNo) : (foldEpisode e s).account i =
    if e.subject = .exceedance i then { s.account i with current := (s.account i).current.map (·.fold e) }
    else s.account i := by
  unfold foldEpisode
  cases e.subject with
  | abnormalOperation k => rfl
  | exceedance j =>
    rw [account_updCurrent]
    simp only [Subject.exceedance.injEq]
    split
    · next hj => subst hj; rfl
    · rfl

/-- Each account gets the episodes of its own slot, in the order of the list. -/
theorem account_foldEpisodes (l : List Episode) (s : State) (i : SlotNo) :
    (l.foldl (fun t e => foldEpisode e t) s).account i = { s.account i with
      current := (s.account i).current.map (foldedSide (l.filter fun e => e.subject == .exceedance i)) } := by
  induction l generalizing s with
  | nil =>
    have same : foldedSide [] = id := rfl
    simp [same]
  | cons e l ih =>
    rw [List.foldl_cons, ih, account_foldEpisode, List.filter_cons]
    by_cases he : e.subject = .exceedance i
    · simp [he, foldedSide_cons]
    · simp [he]

/-- An EXCEEDANCE subject of slot i is an EXCEEDANCE subject. -/
theorem Subject.exceedance_isExceedance {u : Subject} {i : SlotNo} :
    (u == .exceedance i && u.isExceedance) = (u == .exceedance i) := by
  by_cases h : u = .exceedance i
  · simp [h, Subject.isExceedance]
  · simp [h]

theorem account_endExceedances (stamp : HalfHourStamp) (s : State) (i : SlotNo) :
    (endEpisodes Subject.isExceedance stamp s).account i = { s.account i with
      current := (s.account i).current.map (foldedSide (openExceedances i s.episodes)) } := by
  have own : (s.episodes.filter fun e => e.isOpen && e.subject.isExceedance).filter
      (fun e => e.subject == .exceedance i) = openExceedances i s.episodes := by
    rw [List.filter_filter, openExceedances]
    refine List.filter_congr fun e _ => ?_
    rw [Bool.and_left_comm, Subject.exceedance_isExceedance]
  rw [← own]
  exact account_foldEpisodes ..

/-! ## The accounts it applies to (07 R131) -/

theorem yearEndApplies_iff {a : Account} {Y : Nat} : yearEndApplies a Y = true ↔ YearApplies a Y := by
  unfold yearEndApplies YearApplies
  cases a.activatedAt <;> simp [and_assoc]

/-- Whether the year end applies does not depend on what a current side holds. -/
theorem yearApplies_side (a : Account) (f : CurrentSide → CurrentSide) (Y : Nat) :
    YearApplies { a with current := a.current.map f } Y ↔ YearApplies a Y := by
  simp [YearApplies]

section
variable {Y : Nat} {s : State} {i : SlotNo} {c : CurrentSide}

theorem closeYear_account_applies (hc : (s.account i).current = some c) (h : YearApplies (s.account i) Y) :
    (closeYear Y s).account i = closeYearAccount { s.account i with
      current := some (foldedSide (openExceedances i s.episodes) c) } Y (foldedSide (openExceedances i s.episodes) c) := by
  have applies := yearEndApplies_iff.mpr ((yearApplies_side _ (foldedSide (openExceedances i s.episodes)) Y).mpr h)
  rw [hc, Option.map_some] at applies
  rw [closeYear_account, account_endExceedances, hc, Option.map_some]
  exact if_pos applies

theorem closeYear_account_stays (h : ¬ YearApplies (s.account i) Y) :
    (closeYear Y s).account i = { s.account i with
      current := (s.account i).current.map (foldedSide (openExceedances i s.episodes)) } := by
  have stays := mt yearEndApplies_iff.mp (mt (yearApplies_side _ (foldedSide (openExceedances i s.episodes)) Y).mp h)
  rw [closeYear_account, account_endExceedances]
  dsimp only
  cases hc : (s.account i).current.map (foldedSide (openExceedances i s.episodes)) with
  | none => rfl
  | some c =>
    rw [hc] at stays
    exact if_neg stays

end

/-! ## The episodes and the events (07 R133, R134) -/

theorem Subject.isExceedance_eq_kind (u : Subject) : u.isExceedance = (u.kind == 0) := by cases u <;> rfl

theorem closeYear_episodes (Y : Nat) (s : State) :
    (closeYear Y s).episodes = s.episodes.filterMap (fun e =>
      if e.isOpen && e.subject.kind == 0 then
        if e.acknowledged then none else some { e with ended := some ⟨Y, daysInYear Y, 47⟩ }
      else some e) := by
  have closed (t : State) : (forEach 128 (closeYearOf Y) t).episodes = t.episodes :=
    (congrArg State.episodes (closeYears_frame Y t) :)
  unfold closeYear
  dsimp only
  rw [raiseEvent_episodes, moveYear_episodes, closed]
  simp only [← Subject.isExceedance_eq_kind]
  rfl

/-- The year close of an account overwrites a HELD closed side. -/
def yearRaises (Y : Nat) (a : Account) : Bool := yearEndApplies a Y && a.closed.isSome

theorem closeYearOf_events (Y : Nat) (i : SlotNo) (s : State) :
    (closeYearOf Y i s).events =
      if yearRaises Y (s.account i) then s.events.record .priorUncertified i else s.events := by
  unfold closeYearOf yearRaises
  dsimp only
  cases hc : (s.account i).current with
  | none => simp [yearEndApplies, hc]
  | some c =>
    cases yearEndApplies (s.account i) Y
    · rfl
    · cases (s.account i).closed <;> rfl

/-- The accounts that a year end closes. -/
def yearClosed (Y : Nat) (s : State) : List SlotNo := (List.finRange 128).filter fun i => yearEndApplies (s.account i) Y

theorem yearEndApplies_ended (Y : Nat) (stamp : HalfHourStamp) (s : State) (i : SlotNo) :
    yearEndApplies ((endEpisodes Subject.isExceedance stamp s).account i) Y = yearEndApplies (s.account i) Y := by
  rw [Bool.eq_iff_iff, yearEndApplies_iff, yearEndApplies_iff, account_endExceedances, yearApplies_side]

theorem closeYear_events (Y : Nat) (s : State) :
    (closeYear Y s).events = (recordSlots .priorUncertified (fun i => yearRaises Y (s.account i)) s.events).record
      .yearClosed (yearClosed Y s).length := by
  obtain ⟨t, ht⟩ : ∃ t, t = endEpisodes Subject.isExceedance ⟨Y, daysInYear Y, 47⟩ s := ⟨_, rfl⟩
  have events : t.events = s.events := by rw [ht, endEpisodes_frame]
  have raises (i : SlotNo) : yearRaises Y (t.account i) = yearRaises Y (s.account i) := by
    unfold yearRaises
    rw [ht, yearEndApplies_ended, account_endExceedances]
  have count : countOf (fun i => yearEndApplies (t.account i) Y) = (yearClosed Y s).length := by
    simp only [ht, yearEndApplies_ended]
    exact List.countP_eq_length_filter
  have moved (u : State) : (moveYear u).events = u.events := rfl
  unfold closeYear
  dsimp only
  rw [← ht, count, raiseEvent_events, moved, events_forEach (closeYearOf_events Y) (closeYearOf_other Y), events]
  simp only [raises]

/-- Settles O25: account by account behind the end of its episodes, stack by stack, and the events by the slots. -/
theorem yearEndClosesAccounts : Obligations.YearEndClosesAccounts := by
  intro s Y h
  have raises (i : SlotNo) : yearRaises Y (s.account i) = true ↔
      YearApplies (s.account i) Y ∧ (s.account i).closed.isSome := by
    rw [yearRaises, Bool.and_eq_true, yearEndApplies_iff]
  obtain ⟨raised, closed, others, frame⟩ := closing_events (e := .priorUncertified) (e' := .yearClosed) (by decide)
    raises s.events (yearClosed Y s).length
  rw [← closeYear_events] at raised closed others frame
  refine ⟨headGone (closeYear Y s), h.exec_row, ?_⟩
  rw [headGone_events, headGone_episodes]
  simp only [account_headGone, allowance_headGone]
  refine ⟨fun i c hc happ => ⟨fun hactive => ?_, fun hfrozen => ?_⟩,
    fun i hstay => closeYear_account_stays hstay, closeYear_episodes Y s, fun i => allowance_closeYear Y s i, raised,
    ⟨yearClosed Y s, (List.nodup_finRange 128).filter _, fun i => ?_, closed⟩, others, ?_⟩
  · exact (closeYear_account_applies hc happ).trans (by simp only [closeYearAccount, hactive]; rfl)
  · exact (closeYear_account_applies hc happ).trans (by simp only [closeYearAccount, hfrozen]; rfl)
  · simp [yearClosed, yearEndApplies_iff]
  · rw [headGone_accounts, headGone_allowances, ← frame]
    exact congrArg headGone (closeYear_frame Y s)

end Sys2Proof.Machine
end

section
/-! SUPPORT. The Episode List (08): the list's law under every change of the list, ACK_EPISODE, and the law through every
step. -/

namespace Sys2Proof.Machine

/-! # The numbers of episodes (08 R140) -/

theorem nextNumber_range {c : Nat} (h1 : 1 ≤ c) (h2 : c ≤ 65535) : 1 ≤ nextNumber c ∧ nextNumber c ≤ 65535 := by
  unfold nextNumber
  split <;> omega

/-- The numbers go round from 65535 to 1. -/
theorem nextNumber_iterate {c : Nat} (h1 : 1 ≤ c) (h2 : c ≤ 65535) (k : Nat) :
    nextNumber^[k] c = (c - 1 + k) % 65535 + 1 := by
  induction k with
  | zero => simp only [Function.iterate_zero, id]; omega
  | succ k ih =>
    rw [Function.iterate_succ_apply', ih, nextNumber]
    split <;> omega

theorem freeNumber_range (held : List Nat) (fuel : Nat) {c : Nat} (h1 : 1 ≤ c) (h2 : c ≤ 65535) :
    1 ≤ freeNumber held fuel c ∧ freeNumber held fuel c ≤ 65535 := by
  induction fuel generalizing c with
  | zero => exact ⟨h1, h2⟩
  | succ fuel ih =>
    obtain ⟨next1, next2⟩ := nextNumber_range h1 h2
    unfold freeNumber
    split
    · exact ih next1 next2
    · exact ⟨h1, h2⟩

/-- A search that ends on a held number has met held numbers only. -/
theorem iterate_held {held : List Nat} {fuel c : Nat} (h : freeNumber held fuel c ∈ held) :
    ∀ k ≤ fuel, nextNumber^[k] c ∈ held := by
  induction fuel generalizing c with
  | zero =>
    intro k hk
    rw [Nat.le_zero.mp hk]
    exact h
  | succ fuel ih =>
    unfold freeNumber at h
    split at h
    · next hc =>
      intro k hk
      cases k with
      | zero => exact List.contains_iff_mem.mp hc
      | succ k => exact ih h k (Nat.le_of_succ_le_succ hk)
    · next hc => exact absurd (List.contains_iff_mem.mpr h) hc

/-- With as many moves as numbers are held, the number found is not held: the numbers met are one more, and distinct. -/
theorem freeNumber_free {held : List Nat} {fuel c : Nat} (h1 : 1 ≤ c) (h2 : c ≤ 65535) (hheld : held.length ≤ fuel)
    (hfuel : fuel < 65535) : freeNumber held fuel c ∉ held := by
  intro h
  have met : (List.range (fuel + 1)).map (nextNumber^[·] c) ⊆ held := by
    intro n hn
    obtain ⟨k, hk, rfl⟩ := List.mem_map.mp hn
    exact iterate_held h k (Nat.le_of_lt_succ (List.mem_range.mp hk))
  have distinct : ((List.range (fuel + 1)).map (nextNumber^[·] c)).Nodup := by
    refine List.nodup_range.map_on fun j hj k hk hjk => ?_
    rw [List.mem_range] at hj hk
    simp only [nextNumber_iterate h1 h2] at hjk
    omega
  have count := (distinct.subperm met).length_le
  rw [List.length_map, List.length_range] at count
  omega

/-! # The law of the list (08 R138 to R141, R144) -/

/-- The law of the list, over the slots whose account may have EXCEEDANCE episodes. -/
structure LawfulList (serving : SlotNo → Prop) (l : List Episode) : Prop where
  length : l.length ≤ 32
  numbers : (l.map (·.number)).Nodup
  range : ∀ e ∈ l, 1 ≤ e.number ∧ e.number ≤ 65535
  subjects : ((l.filter (·.isOpen)).map (·.subject)).Nodup
  ended : ∀ e ∈ l, e.isOpen = false → e.acknowledged = false
  accounts : ∀ e ∈ l, ∀ i, e.subject = .exceedance i → serving i

/-- What the law needs of an episode that stays in its place: its number and its subject, no reopening, and no
acknowledgement of an ENDED one. -/
structure Episode.Follows (e x : Episode) : Prop where
  number : x.number = e.number
  subject : x.subject = e.subject
  reopened : x.isOpen = true → e.isOpen = true
  ended : (e.isOpen = false → e.acknowledged = false) → x.isOpen = false → x.acknowledged = false

theorem Episode.Follows.refl (e : Episode) : e.Follows e := ⟨rfl, rfl, id, id⟩

/-- Episodes leave the list, and those that stay follow theirs, in order. -/
def EpisodesFollow (l l' : List Episode) : Prop := List.SublistForall₂ (fun x e => e.Follows x) l' l

theorem EpisodesFollow.refl (l : List Episode) : EpisodesFollow l l := by
  induction l with
  | nil => exact .nil
  | cons e l ih => exact .cons (.refl e) ih

theorem EpisodesFollow.of_sublist {l l' : List Episode} (h : l'.Sublist l) : EpisodesFollow l l' :=
  List.sublistForall₂_iff.mpr ⟨l', by simp [List.forall₂_same, Episode.Follows.refl], h⟩

theorem EpisodesFollow.filterMap {f : Episode → Option Episode} {l : List Episode}
    (h : ∀ e ∈ l, ∀ x, f e = some x → e.Follows x) : EpisodesFollow l (l.filterMap f) := by
  induction l with
  | nil => exact .nil
  | cons e l ih =>
    have rest := ih fun y hy => h y (List.mem_cons_of_mem _ hy)
    rw [List.filterMap_cons]
    split
    · exact .cons_right rest
    · next x hx => exact .cons (h e List.mem_cons_self x hx) rest

theorem EpisodesFollow.map {f : Episode → Episode} (h : ∀ e : Episode, e.Follows (f e)) (l : List Episode) :
    EpisodesFollow l (l.map f) := by
  rw [← List.filterMap_eq_map]
  exact .filterMap fun e _ x hx => by cases hx; exact h e

theorem EpisodesFollow.set {l : List Episode} {pos : Nat} {e x : Episode} (hpos : l[pos]? = some e) (h : e.Follows x) :
    EpisodesFollow l (l.set pos x) := by
  induction l generalizing pos with
  | nil => cases hpos
  | cons y l ih =>
    cases pos with
    | zero => cases hpos; exact .cons h (EpisodesFollow.refl l)
    | succ pos => exact .cons (.refl y) (ih hpos)

section
variable {l l' : List Episode} {serving : SlotNo → Prop}

theorem EpisodesFollow.mem (h : EpisodesFollow l l') {x : Episode} (hx : x ∈ l') : ∃ e ∈ l, e.Follows x := by
  induction h with
  | nil => cases hx
  | @cons y e _ l hf _ ih =>
    rcases List.mem_cons.mp hx with rfl | hx
    · exact ⟨e, List.mem_cons_self, hf⟩
    · obtain ⟨d, hd, hdx⟩ := ih hx
      exact ⟨d, List.mem_cons_of_mem _ hd, hdx⟩
  | cons_right _ ih =>
    obtain ⟨d, hd, hdx⟩ := ih hx
    exact ⟨d, List.mem_cons_of_mem _ hd, hdx⟩

theorem EpisodesFollow.numbers (h : EpisodesFollow l l') : (l'.map (·.number)).Sublist (l.map (·.number)) := by
  induction h with
  | nil => exact List.nil_sublist _
  | cons hf _ ih =>
    rw [List.map_cons, List.map_cons, hf.number]
    exact ih.cons_cons _
  | cons_right _ ih => exact ih.cons _

theorem EpisodesFollow.subjects (h : EpisodesFollow l l') :
    ((l'.filter (·.isOpen)).map (·.subject)).Sublist ((l.filter (·.isOpen)).map (·.subject)) := by
  induction h with
  | nil => exact List.nil_sublist _
  | @cons x e l' l hf _ ih =>
    by_cases hx : x.isOpen = true
    · rw [List.filter_cons_of_pos hx, List.filter_cons_of_pos (hf.reopened hx), List.map_cons, List.map_cons, hf.subject]
      exact ih.cons_cons _
    · rw [List.filter_cons_of_neg hx]
      exact ih.trans (((List.sublist_cons_self e l).filter _).map _)
  | @cons_right e l' l _ ih => exact ih.trans (((List.sublist_cons_self e l).filter _).map _)

/-- The law goes with the episodes, wherever theirs may have EXCEEDANCE episodes still. -/
theorem LawfulList.follow (hl : LawfulList serving l) (h : EpisodesFollow l l') {serving' : SlotNo → Prop}
    (haccounts : ∀ x ∈ l', ∀ i, x.subject = .exceedance i → serving i → serving' i) : LawfulList serving' l' where
  length := by
    have shorter := h.numbers.length_le
    rw [List.length_map, List.length_map] at shorter
    exact shorter.trans hl.length
  numbers := hl.numbers.sublist h.numbers
  range := fun x hx => by
    obtain ⟨e, he, hf⟩ := h.mem hx
    rw [hf.number]
    exact hl.range e he
  subjects := hl.subjects.sublist h.subjects
  ended := fun x hx => by
    obtain ⟨e, he, hf⟩ := h.mem hx
    exact hf.ended (hl.ended e he)
  accounts := fun x hx i hi => by
    obtain ⟨e, he, hf⟩ := h.mem hx
    exact haccounts x hx i hi (hl.accounts e he i (hf.subject.symm.trans hi))

/-- An OPEN episode of a number not held and of a subject without an OPEN episode joins a list that is not full. -/
theorem LawfulList.append (hl : LawfulList serving l) {x : Episode} (hroom : l.length < 32) (hopen : x.isOpen = true)
    (hnumber : x.number ∉ l.map (·.number)) (hrange : 1 ≤ x.number ∧ x.number ≤ 65535)
    (hsubject : ∀ e ∈ l, e.isOpen = true → e.subject ≠ x.subject)
    (hserving : ∀ i, x.subject = .exceedance i → serving i) : LawfulList serving (l ++ [x]) where
  length := by rw [List.length_append]; exact hroom
  numbers := by
    rw [List.map_append, List.nodup_append_comm]
    exact List.nodup_cons.mpr ⟨hnumber, hl.numbers⟩
  range := List.forall_mem_append.mpr ⟨hl.range, List.forall_mem_singleton.mpr hrange⟩
  subjects := by
    rw [List.filter_append, List.filter_cons_of_pos hopen, List.map_append, List.nodup_append_comm]
    refine List.nodup_cons.mpr ⟨fun hx => ?_, hl.subjects⟩
    obtain ⟨e, he, hex⟩ := List.mem_map.mp hx
    obtain ⟨heml, heopen⟩ := List.mem_filter.mp he
    exact hsubject e heml heopen hex
  ended := List.forall_mem_append.mpr ⟨hl.ended, List.forall_mem_singleton.mpr fun hended => by
    rw [hopen] at hended; cases hended⟩
  accounts := List.forall_mem_append.mpr ⟨hl.accounts, List.forall_mem_singleton.mpr hserving⟩

end

/-! ## The changes of one episode (08 R143, R144, R149) -/

theorem Episode.follows_extend (e : Episode) (value : Option Nat) : e.Follows (e.extend value) := ⟨rfl, rfl, id, id⟩

/-- An episode that is not acknowledged ends. -/
theorem Episode.follows_end {e : Episode} (h : e.acknowledged = false) (stamp : HalfHourStamp) :
    e.Follows { e with ended := some stamp } := ⟨rfl, rfl, nofun, fun _ _ => h⟩

/-- An OPEN episode is acknowledged. -/
theorem Episode.follows_acknowledge {e : Episode} (h : e.isOpen = true) (cause : Nat) :
    e.Follows (e.acknowledge cause) := ⟨rfl, rfl, id, fun _ hended => absurd (h.symm.trans hended) nofun⟩

/-- The end of the OPEN episodes of some subjects (08 R144). -/
theorem EpisodesFollow.endEpisodes (p : Subject → Bool) (stamp : HalfHourStamp) (s : State) :
    EpisodesFollow s.episodes (endEpisodes p stamp s).episodes := by
  refine .filterMap fun e _ x hx => ?_
  split at hx
  · split at hx
    · cases hx
    · next hack =>
      cases hx
      exact Episode.follows_end (Bool.eq_false_iff.mpr hack) stamp
  · cases hx
    exact .refl e

/-- ACK_EPISODE on the list (08 R149). -/
theorem EpisodesFollow.acknowledgeAt {l : List Episode} {pos : Nat} {e : Episode} (hpos : l[pos]? = some e) (cause : Nat) :
    EpisodesFollow l (acknowledgeAt l pos e cause) := by
  unfold Machine.acknowledgeAt
  split
  · next hopen => exact .set hpos (Episode.follows_acknowledge hopen cause)
  · exact .of_sublist (List.eraseIdx_sublist ..)


/-! # ACK_EPISODE (08 R149) -/

section
variable {s : State} {r : Request} {n cause : Nat} {before after_ : List Episode} {e : Episode}

theorem positionOf_none (h : ∀ x ∈ s.episodes, x.number ≠ n) : positionOf s n = none :=
  List.findIdx?_eq_none_iff.mpr fun x hx => beq_false_of_ne (h x hx)

/-- The first episode with a number stands behind those without it. -/
theorem positionOf_append (hs : s.episodes = before ++ e :: after_) (hn : e.number = n)
    (hbefore : ∀ x ∈ before, x.number ≠ n) : positionOf s n = some before.length := by
  have absent : before.findIdx? (fun x => x.number == n) = none :=
    List.findIdx?_eq_none_iff.mpr fun x hx => beq_false_of_ne (hbefore x hx)
  rw [positionOf, hs, List.findIdx?_append, absent, List.findIdx?_cons, if_pos (beq_iff_eq.mpr hn)]
  simp

theorem acknowledgeAt_open (h : e.isOpen = true) (cause : Nat) :
    acknowledgeAt (before ++ e :: after_) before.length e cause = before ++ e.acknowledge cause :: after_ := by
  simp [acknowledgeAt, h]

theorem acknowledgeAt_ended (h : e.isOpen = false) (cause : Nat) :
    acknowledgeAt (before ++ e :: after_) before.length e cause = before ++ after_ := by
  simp [acknowledgeAt, h, List.eraseIdx_append_of_length_le]

theorem performAckEpisode_notHeld (h1 : r.natArg 1 1 65535 = some n) (h2 : r.natArg 2 0 255 = some cause)
    (hn : ∀ x ∈ s.episodes, x.number ≠ n) : performAckEpisode r s = .refused .notFound := by
  simp only [performAckEpisode, h1, h2, positionOf_none hn]

/-- The episode that the number finds is acknowledged once only. -/
theorem performAckEpisode_held (h1 : r.natArg 1 1 65535 = some n) (h2 : r.natArg 2 0 255 = some cause)
    (hs : s.episodes = before ++ e :: after_) (hn : e.number = n) (hbefore : ∀ x ∈ before, x.number ≠ n) :
    performAckEpisode r s =
      if e.acknowledged then .refused .state
      else .done [num n, num e.subject.kind, num e.subject.index, num (!e.isOpen).toNat,
        num (acknowledgeAt s.episodes before.length e cause).length]
        { s with episodes := acknowledgeAt s.episodes before.length e cause } := by
  have found : s.episodes[before.length]? = some e := by simp [hs]
  simp only [performAckEpisode, h1, h2, positionOf_append hs hn hbefore, found, hn]

end

/-- Settles O43: by the position of the number, and the list there by whether its episode is OPEN. -/
theorem ackEpisodeTakesNote : Obligations.AckEpisodeTakesNote := by
  intro s p r n cause h hn hn1 hn2 hcause hcause255
  have number := natArg_some hn hn1 hn2
  have code := natArg_some hcause (Nat.zero_le _) hcause255
  refine ⟨fun habsent => h.refused (performAckEpisode_notHeld number code habsent),
    fun before after_ e hs hen hbefore => ?_⟩
  have held := performAckEpisode_held number code hs hen hbefore
  refine ⟨fun hack => h.refused ?known, fun hack hopen => h.done ?open_, fun hack hended => h.done ?ended⟩
  case known => exact held.trans (if_pos hack)
  case open_ =>
    have length : (before ++ e.acknowledge cause :: after_).length = s.episodes.length := by simp [hs]
    rw [hack, hs, acknowledgeAt_open hopen, hopen, length] at held
    exact held
  case ended =>
    have length : ((before ++ after_).length : Int) = (s.episodes.length : Int) - 1 := by
      simp only [hs, List.length_append, List.length_cons]
      omega
    rw [hack, hs, acknowledgeAt_ended hended, hended, length] at held
    exact held

/-! # What the Episode List's law needs of the accounts (08 R138, 01 R2) -/

/-- Neither FREE nor DRAFT: the account may have EXCEEDANCE episodes (08 R138). -/
def Account.Serving (a : Account) : Prop := a.state ≠ .free ∧ a.state ≠ .draft

/-- The accounts' part of the law, and that it can be kept: a current side is with an account that serves, so that the
episode an entry opens has one (01 R2, 07 R120). -/
structure EpisodesKept (s : State) : Prop where
  list : LawfulList (fun i => (s.account i).Serving) s.episodes
  counter : 1 ≤ s.episodeCounter ∧ s.episodeCounter ≤ 65535
  sides : ∀ i, (s.account i).current.isSome → (s.account i).Serving

theorem EpisodesKept.law {s : State} (hs : EpisodesKept s) : EpisodeLaw s :=
  ⟨hs.list.length, hs.list.numbers, hs.list.range, hs.list.subjects, hs.list.ended, hs.list.accounts, hs.counter⟩

/-- The shapes of the accounts give what is needed of the current sides (01 R2). -/
theorem EpisodesKept.of_laws {s : State} (haccounts : AccountLaw s) (h : EpisodeLaw s) : EpisodesKept s := by
  obtain ⟨length, numbers, range, subjects, ended, accounts, counter⟩ := h
  refine ⟨⟨length, numbers, range, subjects, ended, accounts⟩, counter, fun i hside => ⟨fun hfree => ?_, fun hdraft => ?_⟩⟩
  · have shape := haccounts.1 i
    rw [Account.shaped, hfree] at shape
    rw [show s.account i = .free from shape] at hside
    cases hside
  · obtain ⟨-, -, -, hnone, -⟩ := (Account.shaped_draft hdraft).mp (haccounts.1 i)
    rw [hnone] at hside
    cases hside

/-! ## An account that goes on serving -/

/-- An account that serves goes on serving, and a current side comes with service. -/
structure Account.ServesOn (a b : Account) : Prop where
  serving : a.Serving → b.Serving
  side : (a.current.isSome → a.Serving) → b.current.isSome → b.Serving

theorem Account.ServesOn.trans {a b c : Account} (h : a.ServesOn b) (h' : b.ServesOn c) : a.ServesOn c :=
  ⟨h'.serving ∘ h.serving, h'.side ∘ h.side⟩

/-- In its state, and with no current side where there was none. -/
theorem Account.ServesOn.of_state {a b : Account} (hstate : b.state = a.state)
    (hside : b.current.isSome → a.current.isSome) : a.ServesOn b := by
  have serving : a.Serving → b.Serving := fun h => by rwa [Account.Serving, hstate]
  exact ⟨serving, fun h hb => serving (h (hside hb))⟩

theorem Account.ServesOn.refl (a : Account) : a.ServesOn a := .of_state rfl id

/-- Brought or kept in service. -/
theorem Account.ServesOn.of_serving {a b : Account} (h : b.Serving) : a.ServesOn b := ⟨fun _ => h, fun _ _ => h⟩

/-- A slot that did not serve holds an account without a current side. -/
theorem Account.ServesOn.of_idle {a b : Account} (ha : ¬ a.Serving) (hb : b.current = none) : a.ServesOn b :=
  ⟨fun h => absurd h ha, fun _ hside => by rw [hb] at hside; cases hside⟩

theorem Account.serving_of_closeYear {a : Account} {Y : Nat} (h : yearEndApplies a Y = true) (c : CurrentSide) :
    (closeYearAccount a Y c).Serving := by
  obtain ⟨hactive | hfrozen, -⟩ := yearEndApplies_iff.mp h
  · simp [closeYearAccount, Account.Serving, hactive]
  · simp [closeYearAccount, Account.Serving, hfrozen]

/-! ## What leaves the Episode List alone -/

/-- The Episode List and its counter are as they were, and every account goes on serving. -/
structure ServesOn (s t : State) : Prop where
  slot : ∀ i, (s.account i).ServesOn (t.account i)
  episodes : t.episodes = s.episodes
  counter : t.episodeCounter = s.episodeCounter

theorem ServesOn.trans {s t u : State} (h : ServesOn s t) (h' : ServesOn t u) : ServesOn s u :=
  ⟨fun i => (h.slot i).trans (h'.slot i), h'.episodes.trans h.episodes, h'.counter.trans h.counter⟩

theorem ServesOn.of_same {s t : State} (ha : t.accounts = s.accounts) (he : t.episodes = s.episodes)
    (hc : t.episodeCounter = s.episodeCounter) : ServesOn s t :=
  ⟨fun i => by
    have same : t.account i = s.account i := congrArg (·.get i) ha
    rw [same]
    exact .refl _, he, hc⟩

theorem ServesOn.refl (s : State) : ServesOn s s := .of_same rfl rfl rfl

theorem ServesOn.setAccount {s : State} {i : SlotNo} {b : Account} (h : (s.account i).ServesOn b) :
    ServesOn s (s.setAccount i b) :=
  ⟨fun j => by
    rw [account_setAccount]
    split
    · next hij => rw [← hij]; exact h
    · exact .refl _, rfl, rfl⟩

theorem ServesOn.raiseEvent (e : EventSource) (d : Nat) (s : State) : ServesOn s (raiseEvent e d s) := .of_same rfl rfl rfl

theorem ServesOn.updCurrent (s : State) (i : SlotNo) (f : CurrentSide → CurrentSide) : ServesOn s (s.updCurrent i f) :=
  .setAccount (.of_state rfl (by simp))

theorem ServesOn.setLinkOf (s : State) (c : Option ChannelNo) (l : Option SlotNo) : ServesOn s (s.setLinkOf c l) :=
  .of_same (State.setLinkOf_accounts ..) (State.setLinkOf_episodes ..) (State.setLinkOf_episodeCounter ..)

theorem ServesOn.foldl {γ : Type} {f : State → γ → State} (h : ∀ s x, ServesOn s (f s x)) (l : List γ) (s : State) :
    ServesOn s (l.foldl f s) := by
  induction l generalizing s with
  | nil => exact .refl s
  | cons x l ih => exact (h s x).trans (ih _)

theorem ServesOn.forEach {n : Nat} {f : Fin n → State → State} (h : ∀ i s, ServesOn s (f i s)) (s : State) :
    ServesOn s (forEach n f s) :=
  .foldl (fun t i => h i t) (List.finRange n) s

theorem EpisodesKept.follow {s t : State} (hs : EpisodesKept s) (h : ServesOn s t) : EpisodesKept t where
  list := by
    rw [h.episodes]
    exact hs.list.follow (.refl _) fun _ _ i _ => (h.slot i).serving
  counter := by
    rw [h.counter]
    exact hs.counter
  sides := fun i => (h.slot i).side (hs.sides i)

/-- Episodes change or leave the list while the accounts stay. -/
theorem EpisodesKept.episodes {s : State} (hs : EpisodesKept s) {l : List Episode} (h : EpisodesFollow s.episodes l) :
    EpisodesKept { s with episodes := l } :=
  ⟨hs.list.follow h fun _ _ _ _ => id, hs.counter, hs.sides⟩

/-! # The law through the requests -/

/-! ## The requests of accounts (01 R17 to R26, 09 R164) -/

theorem createAccount_servesOn (r : Request) (s : State) : (performCreateAccount r s).Leads (ServesOn s) := by
  unfold performCreateAccount
  split
  · trivial
  refine Reply.leads_check fun _ => ?_
  split
  · trivial
  next i hi =>
  have hfree : (s.account i).state = .free := beq_iff_eq.mp (lowest_some hi)
  exact .setAccount (.of_idle (fun h => h.1 hfree) rfl)

theorem setLimits_servesOn (r : Request) (s : State) : (performSetLimits r s).Leads (ServesOn s) := by
  refine withTarget_leads fun i => Reply.leads_check fun _ => ?_
  split
  · trivial
  · exact .setAccount (.of_state rfl id)

theorem linkSource_servesOn (r : Request) (s : State) : (performLinkSource r s).Leads (ServesOn s) := by
  refine withTarget_leads fun i => Reply.leads_check fun _ => ?_
  split
  · trivial
  · exact .setAccount (.of_state rfl id)

theorem activate_servesOn (r : Request) (s : State) : (performActivate r s).Leads (ServesOn s) := by
  refine withTarget_leads fun i => Reply.leads_check fun _ => ?_
  split
  · trivial
  next c _ =>
  refine Reply.leads_check fun _ => Reply.leads_check fun _ => Reply.leads_check fun _ => withClockAndBacklog_leads ?_
  have entered : ((s.account i).intoService (pendingHalfHour s.clock) c 0).Serving := ⟨nofun, nofun⟩
  exact (ServesOn.setAccount (.of_serving entered)).trans (.setLinkOf _ (some c) _)

theorem freeze_serving (a : Account) (h : HalfHourStamp) : (a.freeze h).Serving := ⟨nofun, nofun⟩

theorem amend_servesOn (r : Request) (s : State) : (performAmend r s).Leads (ServesOn s) := by
  refine withTarget_leads fun i => ?_
  split
  · trivial
  next j _ =>
  refine Reply.leads_check fun _ => Reply.leads_check fun _ => Reply.leads_check fun _ => withClockAndBacklog_leads ?_
  have succeeded : ((s.account j).succeed (s.account i) (pendingHalfHour s.clock)).Serving := ⟨nofun, nofun⟩
  exact ((ServesOn.setAccount (.of_serving (freeze_serving ..))).trans (.setAccount (.of_serving succeeded))).trans
    (.setLinkOf ..)

theorem reassign_servesOn (r : Request) (s : State) : (performReassign r s).Leads (ServesOn s) := by
  refine withTarget_leads fun i => ?_
  split
  · trivial
  next c _ =>
  refine Reply.leads_check fun _ => Reply.leads_check fun _ => Reply.leads_check fun _ => withClockAndBacklog_leads ?_
  have moved : (s.account i).ServesOn ((s.account i).reassigned c) :=
    .of_state rfl fun h => (Option.isSome_map.symm.trans h :)
  exact ((ServesOn.setAccount moved).trans (.setLinkOf ..)).trans (.setLinkOf _ (some c) _)

theorem retire_servesOn (r : Request) (s : State) : (performRetire r s).Leads (ServesOn s) :=
  withTarget_leads fun _ => Reply.leads_check fun _ => withClockAndBacklog_leads
    ((ServesOn.setAccount (.of_serving (freeze_serving ..))).trans (.setLinkOf ..))

theorem deleteDraft_servesOn (r : Request) (s : State) : (performDeleteDraft r s).Leads (ServesOn s) :=
  withTarget_leads fun _ => Reply.leads_check fun hd => .setAccount (.of_idle (fun h => h.2 (not_not.mp hd)) rfl)

theorem mark_servesOn (r : Request) (s : State) : (performMark r s).Leads (ServesOn s) := by
  refine withTarget_leads fun i => ?_
  split
  case h_3 => trivial
  all_goals
    next c _ hc =>
    split
    · trivial
    · exact Reply.leads_check fun _ => .setAccount (.of_state rfl fun _ => by rw [hc]; rfl)

/-- A LAPSED account gives up its slot together with its EXCEEDANCE episodes (01 R26, 08 R153). -/
theorem EpisodesKept.vacate {s : State} (hs : EpisodesKept s) (i : SlotNo) :
    EpisodesKept ((removeEpisodesOf i s).setAccount i .free) where
  list := hs.list.follow (.of_sublist List.filter_sublist) fun x hx j hj hserving => by
    have own : x.ofSlot i = false := by simpa using (List.mem_filter.mp hx).2
    have other : j ≠ i := by
      rintro rfl
      simp [Episode.ofSlot, hj] at own
    rw [account_setAccount_ne _ _ _ _ other]
    exact hserving
  counter := hs.counter
  sides := fun j hside => by
    rw [account_setAccount] at hside ⊢
    split at hside
    · cases hside
    · next hij => rw [if_neg hij]; exact hs.sides j hside

theorem certify_episodesKept {s : State} (hs : EpisodesKept s) (r : Request) :
    (performCertify r s).Leads EpisodesKept := by
  refine withTarget_leads fun i => ?_
  split
  · trivial
  split
  · exact hs.vacate i
  · exact hs.follow (.setAccount (.of_state rfl id))

/-! ## The requests of channels (02 R33 to R39) -/

theorem configureChannel_servesOn (r : Request) (s : State) : (performConfigureChannel r s).Leads (ServesOn s) := by
  refine withChannel_leads fun c => Reply.leads_check fun _ => ?_
  split
  · trivial
  · exact Reply.leads_check fun _ => .of_same rfl rfl rfl

theorem startChannel_servesOn (r : Request) (s : State) : (performStartChannel r s).Leads (ServesOn s) :=
  withChannel_leads fun _ => Reply.leads_check fun _ => .of_same rfl rfl rfl

theorem stopChannel_servesOn (r : Request) (s : State) : (performStopChannel r s).Leads (ServesOn s) :=
  withChannel_leads fun _ => Reply.leads_check fun _ => .of_same rfl rfl rfl

theorem releaseChannel_servesOn (r : Request) (s : State) : (performReleaseChannel r s).Leads (ServesOn s) :=
  withChannel_leads fun _ => Reply.leads_check fun _ => Reply.leads_check fun _ => Reply.leads_check fun _ =>
    Reply.leads_check fun _ => .of_same rfl rfl rfl

theorem readChannel_servesOn (r : Request) (s : State) : (performReadChannel r s).Leads (ServesOn s) :=
  withChannel_leads fun _ => trivial

/-! ## The requests of stacks, episodes and the clock, and those that read -/

theorem setAllowance_servesOn (r : Request) (s : State) : (performSetAllowance r s).Leads (ServesOn s) := by
  unfold performSetAllowance
  split
  · exact .of_same (storeAllowances_accounts ..) (storeAllowances_episodes ..) (storeAllowances_episodeCounter ..)
  · trivial

theorem readStack_servesOn (r : Request) (s : State) : (performReadStack r s).Leads (ServesOn s) := by
  unfold performReadStack
  split <;> trivial

theorem setFeedInput_servesOn (r : Request) (s : State) : (performSetFeedInput r s).Leads (ServesOn s) := by
  unfold performSetFeedInput
  split
  · exact .of_same rfl rfl rfl
  · trivial

theorem declareAbnormal_servesOn (r : Request) (s : State) : (performDeclareAbnormal r s).Leads (ServesOn s) := by
  unfold performDeclareAbnormal
  split
  · trivial
  · dsimp only
    split
    · exact .of_same rfl rfl rfl
    · trivial

theorem endAbnormal_servesOn (r : Request) (s : State) : (performEndAbnormal r s).Leads (ServesOn s) := by
  unfold performEndAbnormal
  split
  · trivial
  · dsimp only
    split
    · exact .of_same rfl rfl rfl
    · trivial

theorem ackEpisode_episodesKept {s : State} (hs : EpisodesKept s) (r : Request) :
    (performAckEpisode r s).Leads EpisodesKept := by
  unfold performAckEpisode
  split
  · split
    · trivial
    · split
      · trivial
      · next hpos => exact Reply.leads_check fun _ => hs.episodes (.acknowledgeAt hpos _)
  · trivial

theorem readEpisode_servesOn (r : Request) (s : State) : (performReadEpisode r s).Leads (ServesOn s) := by
  unfold performReadEpisode
  split
  · trivial
  · trivial
  · split <;> trivial

theorem find_servesOn (r : Request) (s : State) : (performFind r s).Leads (ServesOn s) := by
  unfold performFind
  split
  · trivial
  · split
    · trivial
    · exact .refl s

theorem readAccount_servesOn (r : Request) (s : State) : (performReadAccount r s).Leads (ServesOn s) := by
  unfold performReadAccount
  split <;> trivial

theorem setGrace_servesOn (r : Request) (s : State) : (performSetGrace r s).Leads (ServesOn s) := by
  unfold performSetGrace
  split
  · exact .of_same rfl rfl rfl
  · trivial

theorem setCalendar_servesOn (r : Request) (s : State) : (performSetCalendar r s).Leads (ServesOn s) := by
  unfold performSetCalendar
  split
  · trivial
  · exact Reply.leads_check fun _ => Reply.leads_check fun _ => .of_same rfl rfl rfl

theorem resume_servesOn (r : Request) (s : State) : (performResume r s).Leads (ServesOn s) := by
  have resumed (p : MinuteStamp) (u : State) : ServesOn u (resumeAt p u) := .of_same rfl rfl rfl
  have taken (h : HalfHourStamp) (n : Nat) : ServesOn s (takeUp .engine (appendGap h n s)) :=
    .of_same ((takeUp_accounts ..).trans (appendGap_accounts ..)) ((takeUp_episodes ..).trans (appendGap_episodes ..))
      ((takeUp_episodeCounter ..).trans (appendGap_episodeCounter ..))
  cases h : performResume r s with
  | refused o => trivial
  | read v snap => trivial
  | done v t =>
    obtain ⟨p, S, rfl | rfl⟩ := performResume_done r s v t h
    · exact resumed ..
    · exact (taken ..).trans (resumed ..)

/-! ## Every request -/

/-- Whatever is requested, a DONE leads to a lawful list. -/
theorem performRequest_episodesKept {s : State} (hs : EpisodesKept s) (c : RequestCode) (r : Request) :
    (performRequest c r s).Leads EpisodesKept := by
  have on {reply : Reply} (h : reply.Leads (ServesOn s)) : reply.Leads EpisodesKept := h.mono fun _ => hs.follow
  cases c with
  | createAccount => exact on (createAccount_servesOn r s)
  | setLimits => exact on (setLimits_servesOn r s)
  | linkSource => exact on (linkSource_servesOn r s)
  | activate => exact on (activate_servesOn r s)
  | amend => exact on (amend_servesOn r s)
  | reassign => exact on (reassign_servesOn r s)
  | retire => exact on (retire_servesOn r s)
  | deleteDraft => exact on (deleteDraft_servesOn r s)
  | certify => exact certify_episodesKept hs r
  | mark => exact on (mark_servesOn r s)
  | configureChannel => exact on (configureChannel_servesOn r s)
  | startChannel => exact on (startChannel_servesOn r s)
  | stopChannel => exact on (stopChannel_servesOn r s)
  | releaseChannel => exact on (releaseChannel_servesOn r s)
  | readChannel => exact on (readChannel_servesOn r s)
  | setAllowance => exact on (setAllowance_servesOn r s)
  | readStack => exact on (readStack_servesOn r s)
  | ackEpisode => exact ackEpisode_episodesKept hs r
  | readEpisode => exact on (readEpisode_servesOn r s)
  | find => exact on (find_servesOn r s)
  | readAccount => exact on (readAccount_servesOn r s)
  | setFeedInput => exact on (setFeedInput_servesOn r s)
  | declareAbnormal => exact on (declareAbnormal_servesOn r s)
  | endAbnormal => exact on (endAbnormal_servesOn r s)
  | setGrace => exact on (setGrace_servesOn r s)
  | setCalendar => exact on (setCalendar_servesOn r s)
  | resume => exact on (resume_servesOn r s)

section
variable {s : State}

theorem EpisodesKept.answered (hs : EpisodesKept s) (o : Owner) (p : Port) (c : RequestCode) (r : Request) :
    EpisodesKept (finish o (answer p r.code (performRequest c r s) s)) := by
  have leads := performRequest_episodesKept hs c r
  have completed (out : ReqOutcome) (l : List Word32) (t : State) : ServesOn t (complete p r.code out l t) :=
    .of_same (complete_accounts ..) (complete_episodes ..) (complete_episodeCounter ..)
  have answered : EpisodesKept (answer p r.code (performRequest c r s) s) := by
    cases h : performRequest c r s with
    | refused out => exact hs.follow (completed ..)
    | done v t =>
      rw [h] at leads
      exact leads.follow (completed ..)
    | read v snap =>
      have viewed : ServesOn s (setView p snap s) :=
        .of_same (setView_accounts ..) (setView_episodes ..) (setView_episodeCounter ..)
      exact hs.follow (viewed.trans (completed ..))
  exact answered.follow (.of_same (finish_accounts ..) (finish_episodes ..) (finish_episodeCounter ..))

theorem EpisodesKept.completeAll (hs : EpisodesKept s) : EpisodesKept (completeAll s) :=
  completeAll_induct (fun _ o p c r ht _ => ht.answered o p c r) hs

theorem EpisodesKept.completeEarlier (hs : EpisodesKept s) (o : Owner) : EpisodesKept (completeEarlier o s) :=
  completeEarlier_induct (fun _ o p c r ht _ => ht.answered o p c r) hs o

theorem EpisodesKept.runRequest (hs : EpisodesKept s) (c : RequestCode) :
    Answer.Leads EpisodesKept (runRequest c (performRequest c) s) := by
  unfold Machine.runRequest
  split
  · exact hs
  · exact (hs.completeEarlier _).answered ..

end

/-! # The law through the absorptions (03 R61, R62, 07) -/

section
variable {s : State}

/-- An opening: an episode with a free number at the tail, or a mark on the account of a full list (08 R141, R142). -/
theorem EpisodesKept.openNew (hs : EpisodesKept s) {u : Subject} (hnone : openEpisode s u = none)
    (hserving : ∀ i, u = .exceedance i → (s.account i).Serving) (stamp : HalfHourStamp) (v : Option Nat) :
    EpisodesKept (openNew u stamp v s) := by
  obtain ⟨counter1, counter2⟩ := hs.counter
  have fresh (e : Episode) (he : e ∈ s.episodes) (hopen : e.isOpen = true) : e.subject ≠ u := fun hu => by
    have := no_open hnone e he
    simp [hopen, hu] at this
  unfold Machine.openNew
  split
  · next hroom =>
    have free : freeNumber (s.episodes.map (·.number)) 31 s.episodeCounter ∉ s.episodes.map (·.number) :=
      freeNumber_free counter1 counter2 (by rw [List.length_map]; exact Nat.le_of_lt_succ hroom) (by decide)
    obtain ⟨range1, range2⟩ := freeNumber_range (s.episodes.map (·.number)) 31 counter1 counter2
    exact ⟨hs.list.append hroom rfl free ⟨range1, range2⟩ fresh hserving, nextNumber_range range1 range2, hs.sides⟩
  · cases u with
    | exceedance i => exact hs.follow ((ServesOn.updCurrent s i _).trans (.raiseEvent ..))
    | abnormalOperation k => exact hs.follow (.raiseEvent ..)

theorem EpisodesKept.qualify (hs : EpisodesKept s) {u : Subject}
    (hserving : ∀ i, u = .exceedance i → (s.account i).Serving) (stamp : HalfHourStamp) (v : Option Nat) :
    EpisodesKept (qualify u stamp v s) := by
  unfold Machine.qualify
  split
  · refine hs.episodes (.map (fun e => ?_) _)
    split
    · exact e.follows_extend v
    · exact .refl e
  · next hnone => exact hs.openNew (Option.not_isSome_iff_eq_none.mp hnone) hserving stamp v

theorem foldEpisode_servesOn (e : Episode) (s : State) : ServesOn s (foldEpisode e s) := by
  unfold foldEpisode
  split
  · exact .updCurrent ..
  · exact .refl s

theorem EpisodesKept.endEpisodes (hs : EpisodesKept s) (p : Subject → Bool) (stamp : HalfHourStamp) :
    EpisodesKept (endEpisodes p stamp s) := by
  have folded (l : List Episode) : ServesOn s (l.foldl (fun t e => foldEpisode e t) s) :=
    .foldl (fun t e => foldEpisode_servesOn e t) l s
  refine (hs.follow (folded _)).episodes ?_
  rw [(folded _).episodes]
  exact .endEpisodes p stamp s

/-! ## RESULT and STACK entries (07 R120 to R125, 03 R61, R62) -/

theorem EpisodesKept.validEpisode (hs : EpisodesKept s) {i : SlotNo} (hi : (s.account i).Serving) (t : Terms) (v : Nat)
    (stamp : HalfHourStamp) : EpisodesKept (validEpisode i t v stamp s) := by
  unfold Machine.validEpisode
  split
  · split
    · exact hs.qualify (fun j hj => by cases hj; exact hi) stamp _
    · exact hs.endEpisodes _ stamp
  · exact hs

/-- The account of a counted entry has a current side, and so it serves. -/
theorem EpisodesKept.absorbResult (hs : EpisodesKept s) (e : ResultEntry) : EpisodesKept (absorbResult e s) := by
  unfold Machine.absorbResult
  split
  · next hside =>
    have counted (f : CurrentSide → CurrentSide) : ServesOn s (s.updCurrent e.slot f) := .updCurrent s e.slot f
    have serving (f : CurrentSide → CurrentSide) : ((s.updCurrent e.slot f).account e.slot).Serving :=
      ((counted f).slot e.slot).serving (hs.sides e.slot hside)
    have byClass : EpisodesKept (absorbClass e s) := by
      unfold absorbClass
      dsimp only
      split
      · exact (hs.follow (counted _)).validEpisode (serving _) _ _ _
      · exact hs.follow (counted _)
      · exact hs.follow (counted _)
      · exact (hs.follow (counted _)).endEpisodes _ _
    unfold absorbInternal
    split
    · exact byClass.follow (.updCurrent ..)
    · exact byClass
  · exact hs

theorem EpisodesKept.absorbStack (hs : EpisodesKept s) (e : StackEntry) : EpisodesKept (absorbStack e s) := by
  unfold Machine.absorbStack
  dsimp only
  split
  · have counted : EpisodesKept (s.setAllowance e.stack (s.allowance e.stack).countAbnormal) :=
      hs.follow (.of_same rfl rfl rfl)
    have qualified := counted.qualify (u := .abnormalOperation e.stack) nofun e.stamp none
    exact qualified.follow
      (.of_same (evaluateStop_accounts ..) (evaluateStop_episodes ..) (evaluateStop_episodeCounter ..))
  · exact (hs.endEpisodes (· == .abnormalOperation e.stack) e.stamp).follow (.of_same rfl rfl rfl)

/-! ## The closes and the walk (07 R126 to R135) -/

theorem closeDayOf_servesOn (Y D : Nat) (i : SlotNo) (s : State) : ServesOn s (closeDayOf Y D i s) := by
  unfold closeDayOf
  dsimp only
  split
  · next c hc =>
    split
    · have closed : ServesOn s (s.setAccount i
          { s.account i with current := some (closeDaySide (s.account i).terms Y D c) }) :=
        .setAccount (.of_state rfl fun _ => by rw [hc]; rfl)
      split
      · exact closed.trans (.raiseEvent ..)
      · exact closed
    · exact .refl s
  · exact .refl s

theorem closeDay_servesOn (Y D : Nat) (s : State) : ServesOn s (closeDay Y D s) := by
  unfold closeDay
  exact (ServesOn.forEach (closeDayOf_servesOn Y D) s).trans (.raiseEvent ..)

theorem closeYearOf_servesOn (Y : Nat) (i : SlotNo) (s : State) : ServesOn s (closeYearOf Y i s) := by
  unfold closeYearOf
  dsimp only
  split
  · next c _ =>
    split
    · next happlies =>
      have closed : ServesOn s (s.setAccount i (closeYearAccount (s.account i) Y c)) :=
        .setAccount (.of_serving (Account.serving_of_closeYear happlies c))
      split
      · exact closed.trans (.raiseEvent ..)
      · exact closed
    · exact .refl s
  · exact .refl s

theorem EpisodesKept.closeYear (hs : EpisodesKept s) (Y : Nat) : EpisodesKept (closeYear Y s) := by
  have ended := hs.endEpisodes Subject.isExceedance ⟨Y, daysInYear Y, 47⟩
  have moved (t : State) : ServesOn t (moveYear t) := .of_same rfl rfl rfl
  unfold Machine.closeYear
  exact ended.follow (((ServesOn.forEach (closeYearOf_servesOn Y) _).trans (moved _)).trans (.raiseEvent ..))

theorem chargeGap_servesOn (i : SlotNo) (s : State) : ServesOn s (chargeGap i s) := by
  unfold chargeGap
  split
  · exact .updCurrent ..
  · exact .refl s

theorem EpisodesKept.walkHalfHour (hs : EpisodesKept s) (charged : List SlotNo) (x : HalfHourStamp) :
    EpisodesKept (walkHalfHour charged x s) := by
  have charges := hs.follow (ServesOn.foldl (fun t i => chargeGap_servesOn i t) charged s)
  unfold Machine.walkHalfHour
  dsimp only
  generalize charged.foldl (fun t i => chargeGap i t) s = t at charges ⊢
  have dayClosed : EpisodesKept (if x.hh = 47 then closeDay x.year x.day t else t) := by
    split
    · exact charges.follow (closeDay_servesOn ..)
    · exact charges
  split
  · exact dayClosed.closeYear x.year
  · exact dayClosed

theorem EpisodesKept.walkGap (hs : EpisodesKept s) (charged : List SlotNo) (n : Nat) (x : HalfHourStamp) :
    EpisodesKept (walkGap charged n x s) := by
  induction n generalizing x s with
  | zero => exact hs
  | succ n ih => exact ih (hs.walkHalfHour charged x) _

theorem EpisodesKept.absorbing (hs : EpisodesKept s) (e : Entry) : EpisodesKept (absorbing e s) := by
  cases e with
  | result e => exact hs.absorbResult e
  | stack e => exact hs.absorbStack e
  | dayEnd Y D => exact hs.follow (closeDay_servesOn Y D s)
  | yearEnd Y => exact hs.closeYear Y
  | gap g => exact hs.walkGap g.charged g.count g.start

end

/-! # The law through every command and every step -/

/-! ## Events, the stop and the ports -/

theorem takePulse_servesOn (s : State) : ServesOn s (takePulse s) := by
  have taken (t : State) : ServesOn t (boundary false t) :=
    .of_same (boundary_accounts ..) (boundary_episodes ..) (boundary_episodeCounter ..)
  unfold takePulse
  split
  · exact .refl s
  · split
    · exact .refl s
    · exact taken s
    · exact .of_same rfl rfl rfl
    · have external : ServesOn s (setSource .external s) := .of_same rfl rfl rfl
      exact external.trans (taken _)

theorem expireSupervision_servesOn (s : State) : ServesOn s (expireSupervision s) := by
  unfold expireSupervision
  split
  · next e _ _ =>
    have lost : ServesOn s (loseClock (advanceTo e s)) :=
      .of_same (loseClock_accounts _) (loseClock_episodes _) (loseClock_episodeCounter _)
    exact lost.trans (.of_same (boundary_accounts ..) (boundary_episodes ..) (boundary_episodeCounter ..))
  · exact .refl s

theorem expireGrace_servesOn (s : State) : ServesOn s (expireGrace s) := by
  unfold expireGrace
  split
  · next e _ _ =>
    have advanced : ServesOn s (advanceTo e s) := .of_same rfl rfl rfl
    exact advanced.trans
      (.of_same (collectGrace_accounts _) (collectGrace_episodes _) (collectGrace_episodeCounter _))
  · exact .refl s

theorem changeLine_servesOn (i : StackNo) (level : Bool) (s : State) : ServesOn s (changeLine i level s) := by
  unfold changeLine
  split
  · exact .refl s
  · dsimp only
    split <;> exact .of_same rfl rfl rfl

theorem expireDebounce_servesOn (i : StackNo) (s : State) : ServesOn s (expireDebounce i s) := by
  unfold expireDebounce
  dsimp only
  split
  · exact .refl s
  · split
    · exact .refl s
    · exact .of_same rfl rfl rfl

theorem EpisodesKept.beginStop {s : State} (hs : EpisodesKept s) : EpisodesKept (beginStop s) := by
  unfold Machine.beginStop
  split
  · have stopping : EpisodesKept { s with part := .stopping } := hs.follow (.of_same rfl rfl rfl)
    exact stopping.completeAll.follow
      (.of_same (stopBlocks_accounts _) (stopBlocks_episodes _) (stopBlocks_episodeCounter _))
  · exact hs

theorem receiveByte_servesOn (v : Byte) (s : State) : ServesOn s (receiveByte v s) :=
  .of_same (receiveByte_accounts ..) (receiveByte_episodes ..) (receiveByte_episodeCounter ..)

theorem portWrite_servesOn (p : Port) (loc : Loc) (v : Byte) (s : State) :
    Answer.Leads (ServesOn s) (portWrite p loc v s) := by
  cases p with
  | a =>
    show Answer.Leads _ (frameWrite loc v s)
    unfold frameWrite
    split
    · exact .of_same (windowWrite_accounts ..) (windowWrite_episodes ..) (windowWrite_episodeCounter ..)
    · exact .refl s
  | b =>
    show Answer.Leads _ (valueWrite loc v s)
    unfold valueWrite
    split
    · exact receiveByte_servesOn v s
    · exact .refl s

theorem portRead_servesOn (p : Port) (loc : Loc) (s : State) : Answer.Leads (ServesOn s) (portRead p loc s) := by
  cases p with
  | a =>
    show Answer.Leads _ (frameRead loc s)
    unfold frameRead
    split
    · exact .of_same (windowRead_accounts ..) (windowRead_episodes ..) (windowRead_episodeCounter ..)
    · exact .refl s
  | b =>
    show Answer.Leads _ (selectorRead loc s)
    unfold selectorRead
    split
    · exact receiveByte_servesOn _ s
    · exact .refl s

theorem shiftPlainByte_servesOn {s t : State} (h : shiftPlainByte s = some t) : ServesOn s t := by
  unfold shiftPlainByte at h
  split at h
  · split at h
    · cases h
    · cases h; exact .of_same rfl rfl rfl
  all_goals cases h

theorem execFrameStart_servesOn (s : State) : Answer.Leads (ServesOn s) (execFrameStart s) := by
  unfold execFrameStart
  split <;> exact .of_same rfl rfl rfl

theorem execFrameHeader_servesOn (header : Byte) (s : State) : Answer.Leads (ServesOn s) (execFrameHeader header s) := by
  unfold execFrameHeader
  split <;> exact .of_same rfl rfl rfl

theorem execAnswerSent_servesOn (s : State) : Answer.Leads (ServesOn s) (execAnswerSent s) := by
  unfold execAnswerSent
  split <;> exact .of_same rfl rfl rfl

/-! ## Every command -/

/-- Whatever the command, it leads from a lawful list to a lawful list. -/
theorem EpisodesKept.commands {s : State} (hs : EpisodesKept s) : CommandsLead EpisodesKept s where
  stay := hs
  request := hs.runRequest
  absorption := fun e _ => ((hs.completeEarlier .engine).absorbing e).follow
    (.of_same (removeHead_accounts _) (removeHead_episodes _) (removeHead_episodeCounter _))
  pulse := hs.completeAll.follow (takePulse_servesOn _)
  supervision := hs.completeAll.follow (expireSupervision_servesOn _)
  grace := hs.completeAll.follow (expireGrace_servesOn _)
  line := fun i level => hs.completeAll.follow (changeLine_servesOn i level _)
  debounce := fun i => hs.completeAll.follow (expireDebounce_servesOn i _)
  stop := fun _ _ => hs.beginStop.follow (.of_same rfl rfl rfl)
  pins := fun _ _ => hs.follow (.of_same rfl rfl rfl)
  stopped := fun _ _ => hs.follow (.of_same rfl rfl rfl)
  restart := fun _ => hs.follow (.of_same rfl rfl rfl)
  restartHeld := hs.follow (.of_same rfl rfl rfl)
  write := fun p loc v => (portWrite_servesOn p loc v s).mono fun _ => hs.follow
  handOver := fun v => (portWrite_servesOn .a 0x6C v _).mono fun _ => hs.completeAll.follow
  read := fun p loc => (portRead_servesOn p loc s).mono fun _ => hs.follow
  receive := fun v => hs.follow (receiveByte_servesOn v s)
  frameStart := (execFrameStart_servesOn s).mono fun _ => hs.follow
  frameHeader := fun header => (execFrameHeader_servesOn header s).mono fun _ => hs.follow
  frameEnd := hs.follow (.of_same rfl rfl rfl)
  framingError := hs.follow (.of_same rfl rfl rfl)
  rxdBreak := hs.follow (.of_same rfl rfl rfl)
  breakEnd := hs.follow (.of_same rfl rfl rfl)
  answerSent := (execAnswerSent_servesOn s).mono fun _ => hs.follow

theorem EpisodesKept.step {s : State} (hs : EpisodesKept s) : Answer.Leads EpisodesKept (step s) := by
  refine step_leads (fun c l => ?_) (fun _ ht => hs.follow (shiftPlainByte_servesOn ht)) (hs.follow (.of_same rfl rfl rfl))
  have queued : EpisodesKept { s with pending := l } := hs.follow (.of_same rfl rfl rfl)
  exact queued.commands.exec c

/-- Settles O59: the accounts' law gives that a current side comes with service, and every step keeps this together with the
list's law. -/
theorem stepKeepsEpisodeLaw : Obligations.StepKeepsEpisodeLaw := by
  intro s t haccounts hepisodes hstep
  have leads := (EpisodesKept.of_laws haccounts hepisodes).step
  rw [hstep] at leads
  exact leads.law

end Sys2Proof.Machine
end

section
/-! SUPPORT. Finding, viewing and marking (09): the read requests and the views they fill, the compare record and the values
of FIND, and the functions of MARK. -/

namespace Sys2Proof.Machine

/-! # The read requests (02 R39, 03 R65, 08 R151, 09 R155 to R157) -/

/-! ## A read request and its view -/

/-- A read request completes with DONE on the state in which its port's view holds the snapshot (09 R155, 10 R171). -/
theorem Takes.read {s : State} {c : RequestCode} {p : Port} {r : Request} {v : List Word32} {snap : Snapshot}
    (h : Takes s c p r) (hp : performRequest c r s = .read v snap) :
    exec (requestRow c) s = .next (doneAt c.owner p r v (setView p snap s)) := by
  rw [h.exec_eq, hp]; rfl

theorem common_setView_self (p : Port) (snap : Snapshot) (s : State) :
    (setView p snap s).common p =
      { s.common p with view := { (s.common p).view with snapshot := snap, pointer := 0 } } :=
  common_setCommon_self p _ s

/-- The two views are separate (09 R156). -/
theorem common_setView_ne {p q : Port} (h : q ≠ p) (snap : Snapshot) (s : State) :
    (setView p snap s).common q = s.common q :=
  common_setCommon_ne h _ s

/-! ## READ_ACCOUNT, READ_CHANNEL and READ_STACK -/

section
variable {r : Request} {s : State}

theorem readAccount_read {i : SlotNo} (h : r.target = i.1) :
    performReadAccount r s =
      .read [num i, num (s.account i).state.number, (s.account i).cfgRev.setWidth 32] (.account (accountSnapshot s i)) := by
  simp only [performReadAccount, index_of h]

theorem readAccount_range (h : 127 < r.target) : performReadAccount r s = .refused .argument := by
  rw [performReadAccount, index_none h]

theorem readChannel_read {c : ChannelNo} (h : r.target = c.1) :
    performReadChannel r s = .read [num c, num (s.channel c).state.number] (.channel (channelSnapshot s c)) :=
  withChannel_eq h _

theorem readChannel_range (h : 47 < r.target) : performReadChannel r s = .refused .argument := by
  rw [performReadChannel, withChannel, index_none h]

theorem readStack_read {i : StackNo} (h : r.target = i.1) :
    performReadStack r s =
      .read [num i, num (s.input i).state.number, num (s.allowance i).demand.number] (.stack (stackSnapshot s i)) := by
  simp only [performReadStack, index_of h]

theorem readStack_range (h : 3 < r.target) : performReadStack r s = .refused .argument := by
  rw [performReadStack, index_none h]

/-- The episodes of a slot are counted as the list's members with that subject (09 R157). -/
theorem accountSnapshot_episodes (s : State) (i : SlotNo) :
    (accountSnapshot s i).episodes = (s.episodes.filter (fun e => e.subject == .exceedance i)).length :=
  List.countP_eq_length_filter

/-! ## READ_EPISODE (08 R151) -/

/-- The position of a number is that of the first episode that holds it. -/
theorem positionOf_first {pos : Nat} {e : Episode} (he : s.episodes[pos]? = some e)
    (hfirst : ∀ k < pos, ∀ x, s.episodes[k]? = some x → x.number ≠ e.number) : positionOf s e.number = some pos := by
  obtain ⟨hlen, hget⟩ := List.getElem?_eq_some_iff.mp he
  refine List.findIdx?_eq_some_iff_getElem.mpr ⟨hlen, ?here, fun k hk => ?before⟩
  case here => rw [hget]; exact beq_self_eq_true _
  case before =>
    have hother := hfirst k hk _ (List.getElem?_eq_getElem (hk.trans hlen))
    simpa using hother

theorem selectedPosition_position {pos : Nat} (h1 : r.arg 1 = some 1) (h2 : r.arg 2 = some (pos : Int))
    (hpos : pos ≤ 31) : selectedPosition r s = some (some pos) := by
  have selector : r.natArg 1 0 1 = some 1 := natArg_some h1 (Nat.zero_le _) le_rfl
  simp [selectedPosition, selector, natArg_some h2 (Nat.zero_le _) hpos]

theorem selectedPosition_number {number : Nat} (h1 : r.arg 1 = some 0) (h2 : r.arg 2 = some (number : Int))
    (hlo : 1 ≤ number) (hhi : number ≤ 65535) : selectedPosition r s = some (positionOf s number) := by
  have selector : r.natArg 1 0 1 = some 0 := natArg_some h1 le_rfl (Nat.zero_le _)
  simp [selectedPosition, selector, natArg_some h2 hlo hhi]

theorem readEpisode_read {pos : Nat} {e : Episode} (hsel : selectedPosition r s = some (some pos))
    (he : s.episodes[pos]? = some e) :
    performReadEpisode r s =
      .read [num e.number, num pos, num s.episodes.length] (.episode (episodeSnapshot s pos e)) := by
  simp only [performReadEpisode, hsel, he]

end

/-- Settles O41: each request reads the record that its index, number or position names, and the read fills its port's view
only. -/
theorem readRequestsFillView : Obligations.ReadRequestsFillView := by
  intro s p r
  refine ⟨fun ht => ⟨fun i hi => ?account, fun h => ht.refused (readAccount_range h)⟩,
    fun ht => ⟨fun c hc => ht.read (readChannel_read hc), fun h => ht.refused (readChannel_range h)⟩,
    fun ht => ⟨fun i hi => ht.read (readStack_read hi), fun h => ht.refused (readStack_range h)⟩,
    fun ht pos e he hnamed => ht.read (readEpisode_read ?selection he),
    fun snap q => ⟨?own, fun h => common_setView_ne h snap s⟩⟩
  case account =>
    rw [← accountSnapshot_episodes]
    exact ht.read (readAccount_read hi)
  case selection =>
    obtain ⟨h1, h2, hpos⟩ | ⟨h1, h2, hlo, hhi, hfirst⟩ := hnamed
    · exact selectedPosition_position h1 h2 hpos
    · exact (selectedPosition_number h1 h2 hlo hhi).trans (congrArg some (positionOf_first he hfirst))
  case own => rw [common_setView_self]

/-! # FIND (09 R158, R159) -/

/-! ## The compare record (09 R158) -/

theorem natArg_eq_some {r : Request} {n lo hi v : Nat} :
    r.natArg n lo hi = some v ↔ r.arg n = some (v : Int) ∧ lo ≤ v ∧ v ≤ hi := by
  refine ⟨fun h => ⟨?_, natArg_range h⟩, fun ⟨h, hlo, hhi⟩ => natArg_some h hlo hhi⟩
  by_contra hne
  have absent : r.natArg n lo hi = none := natArg_none fun w hlo hhi hw => by
    have same : w = v := Option.some.inj ((natArg_some hw hlo hhi).symm.trans h)
    exact hne (same ▸ hw)
  rw [absent] at h
  cases h

/-- The bits outside the five fields are those from bit 5 on. -/
theorem careMask_getLsbD : ∀ n < 32, (0xFFFFFFE0#32).getLsbD n = decide (5 ≤ n) := by decide

/-- The care set names five fields at most when it holds no bit above bit 4 (12 R185). -/
theorem fiveBitsOnly_iff (w : Word32) : w &&& 0xFFFFFFE0#32 = 0 ↔ w.toNat < 32 := by
  constructor
  · intro h
    refine Nat.lt_pow_two_of_testBit (n := 5) w.toNat fun n hn => ?_
    by_cases hlt : n < 32
    · have bit : (w &&& 0xFFFFFFE0#32).getLsbD n = false := by rw [h]; exact BitVec.getLsbD_zero
      rw [BitVec.getLsbD_and, careMask_getLsbD n hlt, decide_eq_true hn, Bool.and_true] at bit
      exact bit
    · exact BitVec.getLsbD_of_ge w n (not_lt.mp hlt)
  · intro h
    refine BitVec.eq_of_getLsbD_eq fun n hn => ?_
    show _ = (0#32).getLsbD n
    rw [BitVec.getLsbD_and, careMask_getLsbD n hn, BitVec.getLsbD_zero]
    by_cases h5 : 5 ≤ n
    · have bound : w.toNat < 2 ^ n := (show w.toNat < 2 ^ 5 from h).trans_le (Nat.pow_le_pow_right (by decide) h5)
      have clear : w.getLsbD n = false := Nat.testBit_lt_two_pow bound
      rw [clear, Bool.false_and]
    · rw [decide_eq_false h5, Bool.and_false]

/-- A key field of the compare record: its value when it is cared for, and then in range. -/
theorem careField_key {care : Bool} {x hi : Nat} {o : Option Nat} :
    careField care (if x ≤ hi then some x else none) = some o ↔
      o = (if care then some x else none) ∧ (care = true → x ≤ hi) := by
  cases care with
  | false => simp [careField, eq_comm]
  | true =>
    by_cases h : x ≤ hi
    · simp [careField, h, eq_comm]
    · simp [careField, h]

/-- A field of the compare record that stands in an argument. -/
theorem careField_arg {care : Bool} {r : Request} {n hi : Nat} {o : Option Nat} :
    careField care (r.natArg n 0 hi) = some o ↔
      (care = false → o = none) ∧ (care = true → ∃ v : Nat, v ≤ hi ∧ r.arg n = some (v : Int) ∧ o = some v) := by
  cases care with
  | false => simp [careField, eq_comm]
  | true =>
    have cared : careField true (r.natArg n 0 hi) = some o ↔
        ∃ v : Nat, (r.arg n = some (v : Int) ∧ 0 ≤ v ∧ v ≤ hi) ∧ some v = o := by
      simp only [careField, if_true, Option.map_eq_some_iff, natArg_eq_some]
    rw [cared]
    constructor
    · rintro ⟨v, ⟨harg, -, hle⟩, rfl⟩
      exact ⟨nofun, fun _ => ⟨v, hle, harg, rfl⟩⟩
    · rintro ⟨-, h⟩
      obtain ⟨v, hle, harg, rfl⟩ := h rfl
      exact ⟨v, ⟨harg, Nat.zero_le _, hle⟩, rfl⟩

/-- The five fields of a compare record answer one by one. -/
theorem compareArg_eq_some {r : Request} {k : Compare} :
    compareArg r = some k ↔
      r.word 3 &&& 0xFFFFFFE0#32 = 0 ∧
      careField ((r.word 3).getLsbD 0) (if r.stack ≤ 3 then some r.stack else none) = some k.stack ∧
      careField ((r.word 3).getLsbD 1) (if r.substance ≤ 15 then some r.substance else none) = some k.substance ∧
      careField ((r.word 3).getLsbD 2) (if r.edition ≤ 255 then some r.edition else none) = some k.edition ∧
      careField ((r.word 3).getLsbD 3) (r.natArg 1 0 4) = some k.state ∧
      careField ((r.word 3).getLsbD 4) (r.natArg 2 0 1) = some k.closed := by
  unfold compareArg
  dsimp only
  generalize (if r.stack ≤ 3 then some r.stack else none) = stack,
    (if r.substance ≤ 15 then some r.substance else none) = substance,
    (if r.edition ≤ 255 then some r.edition else none) = edition
  constructor
  · intro h
    split at h
    · cases h
    · next hcare =>
      split at h
      · next hst hsub hed hstate hclosed =>
        cases h
        exact ⟨not_not.mp hcare, hst, hsub, hed, hstate, hclosed⟩
      · cases h
  · rintro ⟨hcare, hst, hsub, hed, hstate, hclosed⟩
    rw [if_neg (not_not.mpr hcare), hst, hsub, hed, hstate, hclosed]

/-- FIND's second and third check pass for the record that it compares with, and for no other. -/
theorem compareArg_iff {r : Request} {k : Compare} : compareArg r = some k ↔ Compares r k := by
  rw [compareArg_eq_some, fiveBitsOnly_iff]
  simp only [careField_key, careField_arg, Compares, and_assoc]

theorem compareArg_none {r : Request} (h : ∀ k, ¬ Compares r k) : compareArg r = none :=
  Option.eq_none_iff_forall_ne_some.mpr fun k hk => h k (compareArg_iff.mp hk)

theorem agrees_iff {o : Option Nat} {v : Nat} : agrees o v = true ↔ ∀ x ∈ o, x = v := by
  cases o <;> simp [agrees]

/-- A slot matches when each field in the care set equals its compare value (09 R159). -/
theorem matching_iff {a : Account} {k : Compare} :
    a.matching k = true ↔
      (∀ x ∈ k.stack, x = a.key.stack.1) ∧ (∀ x ∈ k.substance, x = a.key.substance.1) ∧
      (∀ x ∈ k.edition, x = a.key.edition.1) ∧ (∀ x ∈ k.state, x = a.state.number) ∧
      (∀ x ∈ k.closed, x = a.closed.isSome.toNat) := by
  simp only [Account.matching, Bool.and_eq_true, agrees_iff, and_assoc]

/-! ## The returned values (09 R159) -/

section
variable {s : State} {k : Compare} {start : SlotNo}

theorem performFind_done {r : Request} (hstart : r.arg 4 = some (start.1 : Int)) (hk : Compares r k) :
    performFind r s = .done (findValues s k start.1) s := by
  have number : r.natArg 4 0 127 = some start.1 := natArg_some hstart (Nat.zero_le _) (by omega)
  simp only [performFind, number, compareArg_iff.mpr hk]

theorem performFind_start {r : Request} (h : ∀ i : SlotNo, r.arg 4 ≠ some (i.1 : Int)) :
    performFind r s = .refused .argument := by
  have none_named : r.natArg 4 0 127 = none := natArg_none fun v _ hv => h ⟨v, by omega⟩
  simp only [performFind, none_named]

theorem performFind_compare {r : Request} (h : ∀ k, ¬ Compares r k) : performFind r s = .refused .argument := by
  unfold performFind
  rw [compareArg_none h]
  cases r.natArg 4 0 127 <;> rfl

/-- Returned value 1 is the first match from the start slot. -/
theorem findValues_lowest {i : SlotNo} (hi : start ≤ i) (hmatch : (s.account i).matching k = true)
    (hbefore : ∀ j, start ≤ j → j < i → (s.account j).matching k = false) :
    (findValues s k start.1)[0]? = some (num i) := by
  have found : lowest (fun j : SlotNo => decide (start.1 ≤ j.1) && (s.account j).matching k) = some i := by
    refine find_lowest ?here fun j hj => ?before
    case here => rw [hmatch, Bool.and_true]; exact decide_eq_true hi
    case before =>
      by_cases hstart : start ≤ j
      · rw [hbefore j hstart hj, Bool.and_false]
      · rw [decide_eq_false (p := start.1 ≤ j.1) hstart, Bool.false_and]
  simp only [findValues, found]; rfl

theorem findValues_lowest_none (h : ∀ i, start ≤ i → (s.account i).matching k = false) :
    (findValues s k start.1)[0]? = some absentWord := by
  have missing : lowest (fun j : SlotNo => decide (start.1 ≤ j.1) && (s.account j).matching k) = none :=
    lowest_none fun j => by
      by_cases hstart : start ≤ j
      · rw [h j hstart, Bool.and_false]
      · rw [decide_eq_false (p := start.1 ≤ j.1) hstart, Bool.false_and]
  simp only [findValues, missing]; rfl

theorem findValues_highest {i : SlotNo} (hmatch : (s.account i).matching k = true)
    (hafter : ∀ j, i < j → (s.account j).matching k = false) : (findValues s k start.1)[1]? = some (num i) := by
  simp only [findValues, find_highest hmatch hafter]; rfl

theorem findValues_highest_none (h : ∀ i, (s.account i).matching k = false) :
    (findValues s k start.1)[1]? = some absentWord := by
  simp only [findValues, highest_none h]; rfl

theorem slotMatches_eq {n : Nat} {i : SlotNo} (h : i.1 = n) : slotMatches s k n = (s.account i).matching k := by
  simp only [slotMatches, index_of h.symm]

/-- A bit of half a group's match set is that of its slot. -/
theorem matchSet_slot {first : Nat} {n : Fin 16} {i : SlotNo} (h : i.1 = first + n.1) :
    (matchSet (slotMatches s k) first).getLsbD n = (s.account i).matching k :=
  (matchSet_bit _ _ n).trans (slotMatches_eq h)

end

/-- Settles O44: the two refusals, then the six values one by one. -/
theorem findReturnsMatches : Obligations.FindReturnsMatches := by
  intro s p r ht
  refine ⟨fun h => ht.refused (performFind_start h), fun h => ht.refused (performFind_compare h),
    fun start k hstart hk => ⟨⟨findValues s k start.1, rfl, ht.done (performFind_done hstart hk), ?_⟩,
      fun a => matching_iff⟩⟩
  exact ⟨fun i hi hmatch hbefore => findValues_lowest hi hmatch hbefore, findValues_lowest_none,
    fun i hmatch hafter => findValues_highest hmatch hafter, findValues_highest_none, rfl, rfl,
    fun n i hi => ⟨_, rfl, matchSet_slot hi⟩, fun n i hi => ⟨_, rfl, matchSet_slot hi⟩⟩

/-! # MARK (09 R162 to R164) -/

/-- The function that argument 1 of MARK numbers. -/
def MarkFunction.numbered (f : Fin 4) : MarkFunction := ![.set, .clear, .toggle, .replace] f

theorem MarkFunction.numbered_eq_replace {f : Fin 4} : MarkFunction.numbered f = .replace ↔ f = 3 := by
  revert f; decide

/-! ## The arguments (09 R162) -/

section
variable {r : Request} {f : Fin 4}

theorem markFunctionArg_some (h : r.arg 1 = some (f.1 : Int)) : markFunctionArg r = some (.numbered f) := by
  unfold markFunctionArg
  rw [natArg_some h (Nat.zero_le _) (by omega)]
  fin_cases f <;> rfl

theorem markFunctionArg_none (h : ∀ f : Fin 4, r.arg 1 ≠ some (f.1 : Int)) : markFunctionArg r = none := by
  unfold markFunctionArg
  rw [natArg_none fun v _ hv => h ⟨v, by omega⟩]

theorem markArgs_some (h1 : r.arg 1 = some (f.1 : Int)) (h2 : r.word 2 ≠ 0) (hsel : plantMarksOnly (r.word 2) = true)
    (hval : f = 3 → plantMarksOnly (r.word 3) = true) :
    markArgs r = some (.numbered f, (r.word 2).setWidth 10, (r.word 3).setWidth 10) := by
  simp only [markArgs, markFunctionArg_some h1]
  have selection : ¬ (r.word 2 = 0 ∨ (!plantMarksOnly (r.word 2)) = true) := by
    rw [hsel]
    exact not_or.mpr ⟨h2, nofun⟩
  have values : ¬ (MarkFunction.numbered f = .replace ∧ (!plantMarksOnly (r.word 3)) = true) := by
    rintro ⟨hreplace, hbeyond⟩
    rw [hval (MarkFunction.numbered_eq_replace.mp hreplace)] at hbeyond
    cases hbeyond
  rw [if_neg selection, if_neg values]

/-- The four cases in which the arguments are out of range. -/
theorem markArgs_none
    (h : (∀ f : Fin 4, r.arg 1 ≠ some (f.1 : Int)) ∨ r.word 2 = 0 ∨ plantMarksOnly (r.word 2) = false ∨
      r.arg 1 = some 3 ∧ plantMarksOnly (r.word 3) = false) : markArgs r = none := by
  unfold markArgs
  obtain hfun | hempty | hsel | ⟨h1, hval⟩ := h
  · rw [markFunctionArg_none hfun]
  · cases markFunctionArg r with
    | none => rfl
    | some f => exact if_pos (.inl hempty)
  · cases markFunctionArg r with
    | none => rfl
    | some f => exact if_pos (.inr (by rw [hsel]; rfl))
  · rw [markFunctionArg_some (f := 3) h1]
    exact (congrArg _ (if_pos ⟨rfl, by rw [hval]; rfl⟩)).trans (ite_self _)

end

/-! ## The function on one mark (09 R164) -/

/-- One mark after a function: outside the selection it stays, inside it is as the function and the value set say. -/
theorem apply_numbered_getLsbD (f : Fin 4) (m sel val : MarkSet) (n : Nat) (hn : n < 10) :
    ((MarkFunction.numbered f).apply m sel val).getLsbD n =
      if sel.getLsbD n then
        if f = 0 then true else if f = 1 then false else if f = 2 then !m.getLsbD n else val.getLsbD n
      else m.getLsbD n := by
  have inside : (~~~sel).getLsbD n = !sel.getLsbD n := by rw [BitVec.getLsbD_not, decide_eq_true hn, Bool.true_and]
  match f with
  | 0 =>
    show (m ||| sel).getLsbD n = _
    rw [BitVec.getLsbD_or]
    cases sel.getLsbD n <;> simp
  | 1 =>
    show (m &&& ~~~sel).getLsbD n = _
    rw [BitVec.getLsbD_and, inside]
    cases sel.getLsbD n <;> simp
  | 2 =>
    show (m ^^^ sel).getLsbD n = _
    rw [BitVec.getLsbD_xor]
    cases sel.getLsbD n <;> simp
  | 3 =>
    show (m &&& ~~~sel ||| val &&& sel).getLsbD n = _
    rw [BitVec.getLsbD_or, BitVec.getLsbD_and, BitVec.getLsbD_and, inside]
    cases sel.getLsbD n <;> simp

/-! ## The request -/

section
variable {r : Request} {s : State} {i : SlotNo}

theorem mark_notServing (hn : NamesAccount r s i) (ha : (s.account i).state ≠ .active)
    (hf : (s.account i).state ≠ .frozen) : performMark r s = .refused .state := by
  rw [performMark, hn.withTarget_eq]
  split
  · exact absurd ‹_› ha
  · exact absurd ‹_› hf
  · rfl

/-- On an ACTIVE or FROZEN account MARK goes by its arguments, then by the level condition. -/
theorem mark_serving (hn : NamesAccount r s i) (hs : (s.account i).state = .active ∨ (s.account i).state = .frozen)
    {c : CurrentSide} (hc : (s.account i).current = some c) :
    performMark r s =
      match markArgs r with
      | none => .refused .argument
      | some (f, sel, val) =>
        if holdsWeightyMark (r.word 2) && decide (r.level = 2) then .refused .level
        else .done [MarkSet.word c.marks, revWord ((s.account i).cfgRev + 1), MarkSet.word (f.apply c.marks sel val)]
          (s.setAccount i ((s.account i).marked c (f.apply c.marks sel val))) := by
  rw [performMark, hn.withTarget_eq, hc]
  obtain hs | hs := hs <;> rw [hs] <;> rfl

theorem mark_argument (hn : NamesAccount r s i) (hs : (s.account i).state = .active ∨ (s.account i).state = .frozen)
    {c : CurrentSide} (hc : (s.account i).current = some c) (hargs : markArgs r = none) :
    performMark r s = .refused .argument := by
  rw [mark_serving hn hs hc, hargs]

/-- Behind the argument checks the weight of the selection decides (09 R163). -/
theorem mark_passed (hn : NamesAccount r s i) (hs : (s.account i).state = .active ∨ (s.account i).state = .frozen)
    {c : CurrentSide} (hc : (s.account i).current = some c) {f : MarkFunction} {sel val : MarkSet}
    (hargs : markArgs r = some (f, sel, val)) :
    (r.level ≤ 1 ∨ r.word 2 &&& 7#32 = 0 →
      performMark r s =
        .done [MarkSet.word c.marks, revWord ((s.account i).cfgRev + 1), MarkSet.word (f.apply c.marks sel val)]
          (s.setAccount i ((s.account i).marked c (f.apply c.marks sel val)))) ∧
    (r.level = 2 → r.word 2 &&& 7#32 ≠ 0 → performMark r s = .refused .level) := by
  rw [mark_serving hn hs hc, hargs]
  refine ⟨fun hlight => if_neg ?light, fun hlevel hweighty => if_pos ?weighty⟩
  case light =>
    simp only [holdsWeightyMark, Bool.and_eq_true, bne_iff_ne, decide_eq_true_eq, not_and_or]
    obtain hlevel | hnotes := hlight
    · exact .inr (by omega)
    · exact .inl (not_not.mpr hnotes)
  case weighty =>
    simp only [holdsWeightyMark, Bool.and_eq_true, bne_iff_ne, decide_eq_true_eq]
    exact ⟨hweighty, hlevel⟩

end

/-- Settles O39: the refusals in the order of the checks, then the marks one by one and the level condition. -/
theorem markActsOnSelection : Obligations.MarkActsOnSelection := by
  refine ⟨fun s p r i ht hn => ⟨fun ha hf => ht.refused (mark_notServing hn ha hf), fun hs hside hbad => ?_⟩,
    fun s p r i c f ht hn hs hc h1 h2 hsel hval => ?_⟩
  · obtain ⟨c, hc⟩ := Option.isSome_iff_exists.mp hside
    exact ht.refused (mark_argument hn hs hc (markArgs_none hbad))
  · obtain ⟨hdone, hlevel⟩ := mark_passed hn hs hc (markArgs_some h1 h2 hsel hval)
    refine ⟨fun hlight => ⟨_, ht.done (hdone hlight), fun n hlt => ?_⟩, fun hl hw => ht.refused (hlevel hl hw)⟩
    have bit := apply_numbered_getLsbD f c.marks ((r.word 2).setWidth 10) ((r.word 3).setWidth 10) n hlt
    simp only [BitVec.getLsbD_setWidth, decide_eq_true hlt, Bool.true_and] at bit
    cases hbit : (r.word 2).getLsbD n with
    | false => exact .inl ⟨rfl, bit.trans (by rw [hbit]; rfl)⟩
    | true => exact .inr ⟨rfl, bit.trans (by rw [hbit]; rfl)⟩


end Sys2Proof.Machine
end

section
/-! SUPPORT. The requests at the ports (10) and the reads of the window that have no effect (12): GO, completion, and what
each location returns. -/

namespace Sys2Proof.Machine

/-! # GO and completion (10 R165 to R171) -/

/-! ## The table of requests (10 R166) -/

theorem requestTable_eq :
    requestTable = RequestCode.all.map fun c => (c.byte.toNat, c, c.owner, c.requiredLevel) := by
  decide

theorem RequestCode.mem_all (c : RequestCode) : c ∈ RequestCode.all := by cases c <;> decide

/-- The table has one row for each request: its code, owner and required level. -/
theorem mem_requestTable {b : Nat} {c : RequestCode} {o : Owner} {level : Nat} :
    (b, c, o, level) ∈ requestTable ↔ b = c.byte.toNat ∧ o = c.owner ∧ level = c.requiredLevel := by
  rw [requestTable_eq, List.mem_map]
  constructor
  · rintro ⟨d, -, hrow⟩
    cases hrow
    exact ⟨rfl, rfl, rfl⟩
  · rintro ⟨rfl, rfl, rfl⟩
    exact ⟨c, c.mem_all, rfl⟩

/-- A byte outside the table names no request. -/
theorem ofByte_none {v : Byte} (h : ∀ row ∈ requestTable, row.1 ≠ v.toNat) : RequestCode.ofByte v = none := by
  cases hc : RequestCode.ofByte v with
  | none => rfl
  | some c => exact absurd (congrArg BitVec.toNat (byte_ofByte hc).symm) (h _ (mem_requestTable.mpr ⟨rfl, rfl, rfl⟩))

/-! ## The latched fields (10 R165, R167, 12 R185) -/

section
variable (p : Port) (b : Vector Byte 31)

theorem latch_requestedLevel : (latch p b).requestedLevel = (blockByte b 1).toNat % 4 := by
  simp [latch]

theorem latch_level : (latch p b).level = max (latch p b).requestedLevel (if p = .a then 1 else 0) := by
  cases p <;> rfl

theorem latch_stack : (latch p b).stack = (blockByte b 3).toNat / 16 := by
  have bound := (blockByte b 3).isLt
  simp only [latch, BitVec.extractLsb'_toNat, Nat.shiftRight_eq_div_pow]
  omega

theorem latch_substance : (latch p b).substance = (blockByte b 3).toNat % 16 := by
  simp [latch]

theorem latch_expected :
    (latch p b).expected = if (blockByte b 1).getLsbD 7 then some (blockByte b 6 ++ blockByte b 5) else none := by
  simp [latch, word16At, BitVec.msb_eq_getLsbD_last]

/-- Argument i is the four bytes from location 0x17 + 4 i on, the lowest first. -/
theorem latch_args (i : Fin 6) :
    (latch p b).args.get i =
      (blockByte b (0x1A + 4 * i.1 - 0x10) ++ blockByte b (0x19 + 4 * i.1 - 0x10)) ++
        (blockByte b (0x18 + 4 * i.1 - 0x10) ++ blockByte b (0x17 + 4 * i.1 - 0x10)) := by
  have place (k : Nat) : 0x17 + k + 4 * i.1 - 0x10 = 7 + 4 * i.1 + k := by omega
  rw [place 3, place 2, place 1, place 0]
  exact get_tabulate _ i

end

/-! ## The write to GO (10 R168, R169, R173) -/

/-- A data byte for a location is written behind the move of the port that takes it (12 R183, R184). -/
theorem Writes.portWrite_eq {p : Port} {loc : Loc} {s : State} (h : Writes p loc s) (v : Byte) :
    portWrite p loc v s = .next (windowWrite p loc v (afterByte p loc s)) := by
  cases p with
  | a => exact h.frameWrite_eq v
  | b =>
    obtain ⟨hline, hphase, hpointer⟩ := h
    subst hpointer
    simp [portWrite, valueWrite, receiveByte, writeValue, pointAt, afterByte, hline, hphase]

section
variable {p : Port} {s : State}

theorem afterByte_part (p : Port) (loc : Loc) (s : State) : (afterByte p loc s).part = s.part := by cases p <;> rfl

theorem goWrite_notRunning (h : s.part ≠ .running) : goWrite p s = s := if_pos h

theorem goWrite_pending (hrun : s.part = .running) (h : (s.common p).area.state = .pending) :
    goWrite p s = s.setArea p { (s.common p).area with busy := true } := by
  rw [goWrite, if_neg (not_not.mpr hrun), h]

theorem goWrite_free (hrun : s.part = .running) (h : (s.common p).area.state ≠ .pending) : goWrite p s = submit p s := by
  rw [goWrite, if_neg (not_not.mpr hrun)]
  cases hstate : (s.common p).area.state with
  | pending => exact absurd hstate h
  | idle => rfl
  | done => rfl

/-- A write to GO, whatever the value: a stopped part ignores it as a stopping one does. -/
theorem exec_go (hw : Writes p 0x2F s) (v : Byte) : exec (.go p v) s = .next (goWrite p (afterByte p 0x2F s)) := by
  show portWrite p 0x2F v s = _
  rw [hw.portWrite_eq]
  by_cases hstop : (afterByte p 0x2F s).part = .stopped
  · rw [windowWrite_stopped hstop, goWrite_notRunning (by rw [hstop]; nofun)]
  · rw [windowWrite_run hstop]; rfl

theorem submit_passed {code : RequestCode} (h : portCheck (latch p (s.common p).block) = .ok code) :
    submit p s = takeUp code.owner (s.setArea p
      { (s.common p).area with state := .pending, busy := false, latched := some (latch p (s.common p).block) }) := by
  simp only [submit, h]

theorem submit_refused {o : ReqOutcome} (h : portCheck (latch p (s.common p).block) = .error o) :
    submit p s = complete p (latch p (s.common p).block).code o []
      (s.setArea p { (s.common p).area with latched := some (latch p (s.common p).block) }) := by
  simp only [submit, h]

end

/-! ## The port's checks (10 R168) -/

theorem portCheck_passed {r : Request} {code : RequestCode} (hc : RequestCode.ofByte r.code = some code)
    (harg : r.requestedLevel ≠ 3) (hlevel : r.level ≤ code.requiredLevel) : portCheck r = .ok code := by
  simp only [portCheck, hc, if_neg harg, if_neg (Nat.not_lt.mpr hlevel)]

/-- The three refusals, in their order. -/
theorem portCheck_refused {r : Request} {o : ReqOutcome}
    (h : RequestCode.ofByte r.code = none ∧ o = .unknown ∨
      ∃ code, RequestCode.ofByte r.code = some code ∧
        (r.requestedLevel = 3 ∧ o = .argument ∨
          r.requestedLevel ≠ 3 ∧ code.requiredLevel < r.level ∧ o = .level)) : portCheck r = .error o := by
  obtain ⟨hc, rfl⟩ | ⟨code, hc, ⟨harg, rfl⟩ | ⟨harg, hlevel, rfl⟩⟩ := h
  · simp only [portCheck, hc]
  · simp only [portCheck, hc, if_pos harg]
  · simp only [portCheck, hc, if_neg harg, if_pos hlevel]

/-! ## The statements on GO and completion -/

/-- Settles O31: the table row by row, a GO by the part, the area and the port's checks, and the block's fields. -/
theorem goLatchesRequest : Obligations.GoLatchesRequest := by
  refine ⟨fun b code owner level hrow => ?_, fun v => ofByte_none, fun p v s hw => ?_⟩
  · obtain ⟨rfl, rfl, rfl⟩ := mem_requestTable.mp hrow
    rw [BitVec.ofNat_toNat, BitVec.setWidth_eq]
    exact ⟨ofByte_byte code, rfl, rfl, rfl⟩
  · have running : s.part = .running → (afterByte p 0x2F s).part = .running := (afterByte_part p _ s).trans
    rw [exec_go hw]
    refine ⟨fun hrun hpending => ?_, fun code hrun hfree hc harg hlevel => ?_, fun o hrun hfree hbad => ?_,
      fun hstop => ?_, rfl, latch_requestedLevel .., latch_level .., rfl, latch_stack .., latch_substance .., rfl,
      latch_expected .., fun i => latch_args _ _ i⟩
    · rw [goWrite_pending (running hrun) hpending]; rfl
    · rw [goWrite_free (running hrun) hfree, submit_passed (portCheck_passed hc harg hlevel)]; rfl
    · rw [goWrite_free (running hrun) hfree, submit_refused (portCheck_refused hbad)]; rfl
    · rw [goWrite_notRunning (by rwa [afterByte_part])]

/-- Settles O32: the completion as it stands; a refusal by the run of a taken request with none ahead of it. -/
theorem completionFillsResponse : Obligations.CompletionFillsResponse := by
  refine ⟨fun p code o vals s => ?_, fun c perform s p r o ht hrefused => ?_⟩
  · cases p <;> rfl
  · rw [run_eq ht.1 ht.2.completeEarlier_eq, hrefused]; rfl

/-! # Reads without an effect (12 R181, R185 to R188) -/

/-! ## Bytes of words (12 R181) -/

theorem natBytes_getElem? {n k : Nat} (h : k < n) (v : Nat) :
    (natBytes n v)[k]? = some (BitVec.ofNat 8 (v / 256 ^ k)) := by
  induction n generalizing v k with
  | zero => cases h
  | succ n ih =>
    cases k with
    | zero => simp [natBytes]
    | succ k => rw [natBytes, List.getElem?_cons_succ, ih (by omega), Nat.div_div_eq_div_mul, Nat.pow_succ']

theorem bitBytes_getElem? {w n k : Nat} (h : k < n) (x : BitVec w) :
    (bitBytes n x)[k]? = some (x.extractLsb' (8 * k) 8) := by
  rw [bitBytes, natBytes_getElem? h]
  congr 1
  apply BitVec.eq_of_toNat_eq
  simp [Nat.shiftRight_eq_div_pow, Nat.pow_mul]

/-- Byte k of word i in a row of words. -/
theorem flatMap_bitBytes_getElem? (l : List Word32) (i : Nat) {k : Nat} (hk : k < 4) :
    (l.flatMap (bitBytes 4))[4 * i + k]? = l[i]?.map (·.extractLsb' (8 * k) 8) := by
  induction l generalizing i with
  | nil => simp
  | cons x l ih =>
    have first : (bitBytes 4 x).length = 4 := bitBytes_length 4 x
    rw [List.flatMap_cons]
    cases i with
    | zero =>
      rw [List.getElem?_append_left (by omega), show 4 * 0 + k = k by omega, bitBytes_getElem? hk]
      rfl
    | succ i =>
      rw [List.getElem?_append_right (by omega), first, show 4 * (i + 1) + k - 4 = 4 * i + k by omega, ih]
      rfl

/-! ## The response block (12 R185) -/

theorem Response.bytes_outcome (r : Response) : r.bytes.getD 0 0 = (r.outcome.map ReqOutcome.number).getD 0 := by
  rw [Response.bytes]
  cases r.outcome <;> rfl

theorem Response.bytes_values (r : Response) (i : Fin 6) {k : Nat} (hk : k < 4) :
    r.bytes.getD (2 + 4 * i.1 + k) 0 = (r.values.get i).extractLsb' (8 * k) 8 := by
  rw [List.getD_eq_getElem?_getD, show 2 + 4 * i.1 + k = (4 * i.1 + k) + 1 + 1 by omega]
  show ((r.values.toList.flatMap (bitBytes 4))[4 * i.1 + k]?).getD 0 = _
  rw [flatMap_bitBytes_getElem? _ _ hk]
  simp [Vector.get_eq_getElem]

/-- The outcomes are numbered from 1 in the order of 10 R174. -/
theorem ReqOutcome.number_place (o : ReqOutcome) :
    1 ≤ o.number.toNat ∧
      [ReqOutcome.done, .unknown, .level, .argument, .state, .keyTaken, .noSpace, .inUse, .stale, .notFound, .clockHeld,
        .backlog, .power][o.number.toNat - 1]? = some o := by
  cases o <;> decide

/-! ## What a plain read returns, area by area (12 R181) -/

section
variable {p : Port} {n : Nat} {s : State}

theorem plainRead_block (h0 : 0x10 ≤ n) (h1 : n ≤ 0x2E) : plainRead p n s = blockByte (s.common p).block (n - 0x10) := by
  simp (disch := omega) only [plainRead, if_neg, if_pos]

theorem plainRead_response (h0 : 0x30 ≤ n) (h1 : n ≤ 0x49) :
    plainRead p n s = (s.common p).area.response.bytes.getD (n - 0x30) 0 := by
  simp (disch := omega) only [plainRead, if_neg, if_pos]

theorem plainRead_viewStatus (h0 : 0x50 ≤ n) (h1 : n ≤ 0x53) : plainRead p n s = viewStatusRead n (s.common p).view := by
  simp (disch := omega) only [plainRead, if_neg, if_pos]

theorem plainRead_portAOnly (h : 0x60 ≤ n) : plainRead p n s = portAOnlyRead p n s := by
  simp (disch := omega) only [plainRead, if_neg]

theorem plainRead_posting (h0 : 0x60 ≤ n) (h1 : n ≤ 0x6F) : plainRead .a n s = postingRead n s :=
  (plainRead_portAOnly h0).trans (if_pos h1)

theorem plainRead_events (h : 0x70 ≤ n) : plainRead .a n s = eventRead n s.events :=
  (plainRead_portAOnly (by omega)).trans (if_neg (by omega))

/-- Locations without content, and those of port A alone as port B reads them. -/
theorem plainRead_zero (h : n = 0x2F ∨ (0x4A ≤ n ∧ n ≤ 0x4F) ∨ (0x54 ≤ n ∧ n ≤ 0x5F) ∨ (p = .b ∧ 0x60 ≤ n)) :
    plainRead p n s = 0 := by
  obtain rfl | h | h | ⟨rfl, h⟩ := h
  · rfl
  · simp (disch := omega) only [plainRead, if_neg, if_pos]
  · simp (disch := omega) only [plainRead, if_neg, if_pos]
  · exact plainRead_portAOnly h

end

/-! ## The posting area (02 R40, R46, R47, 12 R187) -/

theorem slotBytes_eq (pair : SlotPair) (k : SlotName) :
    slotBytes pair k =
      [(pair.get k).year.extractLsb' 0 8, (pair.get k).year.extractLsb' 8 8, (pair.get k).day.extractLsb' 0 8,
        (pair.get k).day.extractLsb' 8 8, (pair.get k).minute.extractLsb' 0 8, (pair.get k).minute.extractLsb' 8 8,
        (pair.get k).value.extractLsb' 0 8, (pair.get k).value.extractLsb' 8 8, (pair.get k).value.extractLsb' 16 8,
        Config.qualityReadback (pair.get k).quality ++ (pair.get k).quality.extractLsb' 0 4, 0,
        boolByte (pair.get k).loaded, BitVec.ofNat 8 (pair.get k).code.number, BitVec.ofNat 8 pair.older] := by
  simp only [slotBytes, bitBytes_two, bitBytes_three, natBytes]
  rfl

section
variable {s : State} {n : Nat}

theorem postingRead_selected (h : 0x62 ≤ n) {c : ChannelNo} {k : SlotName} (hsel : selected s = some (c, k)) :
    postingRead n s = (slotBytes (s.slotPair c) k).getD (n - 0x62) 0 := by
  rw [postingRead, if_neg (by omega), if_neg (by omega), hsel]

theorem postingRead_unselected (h : 0x62 ≤ n) (hsel : selected s = none) : postingRead n s = 0 := by
  rw [postingRead, if_neg (by omega), if_neg (by omega), hsel]

end

/-- The low bits of two joined vectors are those of the lower one. -/
theorem extractLsb_append_low {v w : Nat} (x : BitVec v) (y : BitVec w) : (x ++ y).extractLsb' 0 w = y := by
  ext i hi
  simp [BitVec.getLsbD_append, hi]

/-- The top bit of a byte whose top field is one bit. -/
theorem getLsbD_append_top {v w : Nat} (b : Bool) (x : BitVec v) (y : BitVec w) :
    (BitVec.ofBool b ++ x ++ y).getLsbD (v + w) = b := by
  rw [BitVec.getLsbD_append, BitVec.getLsbD_append]
  simp

/-- The result codes are numbered from 0 in the order of 02 R46. -/
theorem ResultCode.number_place (code : ResultCode) :
    [ResultCode.none, .accepted, .taken, .discardedStopped, .discardedCalendar, .refusedClock, .refusedChannel,
      .refusedNotEmpty, .refusedQuality, .refusedStamp, .refusedDuplicate][(BitVec.ofNat 8 code.number).toNat]? =
      some code := by
  cases code <;> rfl

theorem MinuteStamp.before_iff {x y : MinuteStamp} :
    x.before y = true ↔ x.year < y.year ∨ x.year = y.year ∧ (x.day < y.day ∨ x.day = y.day ∧ x.minute < y.minute) := by
  simp [MinuteStamp.before]

/-! ## The Event Unit (11 R175, 12 R188) -/

section
variable (u : EventUnit) (i : Fin 16)

/-- Each of the four sets fills two locations, the bits of eight sources in each. -/
theorem eventRead_sets :
    (eventRead (0x70 + i.1 / 8) u).getLsbD (i.1 % 8) = (u.sources.get i).enable ∧
      (eventRead (0x72 + i.1 / 8) u).getLsbD (i.1 % 8) = (u.sources.get i).masked ∧
      (eventRead (0x74 + i.1 / 8) u).getLsbD (i.1 % 8) = (u.sources.get i).pending ∧
      (eventRead (0x76 + i.1 / 8) u).getLsbD (i.1 % 8) = (u.sources.get i).inService := by
  obtain half | half : i.1 / 8 = 0 ∨ i.1 / 8 = 1 := by omega
  all_goals
    rw [half]
    exact ⟨setByte_bit u _ _ i half, setByte_bit u _ _ i half, setByte_bit u _ _ i half, setByte_bit u _ _ i half⟩

theorem eventRead_control :
    (eventRead 0x78 u).extractLsb' 0 4 = u.vectorBase ∧ (eventRead 0x78 u).getLsbD 7 = u.tracking :=
  ⟨extractLsb_append_low _ _, getLsbD_append_top _ _ _⟩

theorem eventRead_held {n : Nat} (h0 : 0x7A ≤ n) (h1 : n ≤ 0x7D) : eventRead n u = 0 := by
  interval_cases n <;> rfl

theorem eventRead_detailPointer :
    (eventRead 0x7E u).getLsbD 7 = u.lastAck.isSome ∧
      ((eventRead 0x7E u).extractLsb' 0 5).toNat = u.detailPointer.1 := by
  refine ⟨getLsbD_append_top _ _ _, ?_⟩
  show ((BitVec.ofBool u.lastAck.isSome ++ 0#2 ++ BitVec.ofNat 5 u.detailPointer.1).extractLsb' 0 5).toNat = _
  rw [extractLsb_append_low, BitVec.toNat_ofNat, Nat.mod_eq_of_lt (by omega)]

end

/-! ## What the window returns, area by area -/

theorem mem_effectLocs {loc : Loc} :
    loc ∈ effectLocs ↔ loc.toNat = 0x04 ∨ loc.toNat = 0x53 ∨ loc.toNat = 0x79 ∨ loc.toNat = 0x7F := by
  simp [effectLocs, ← BitVec.toNat_inj]

section
variable {s : State} {p : Port} {loc : Loc}

/-- A location whose read has no effect changes nothing on its port (12 R182, R186, R188). -/
theorem windowRead_unchanged (hrun : s.part ≠ .stopped) (ha : p = .a → loc ∉ effectLocs)
    (hb : p = .b → loc.toNat ≠ 0x04 ∧ loc.toNat ≠ 0x53) : (windowRead p loc s).2 = s := by
  have running : ¬ (s.part = .stopped ∧ 0x0F < loc.toNat) := fun h => hrun h.1
  cases p with
  | a =>
    have plain := ha rfl
    simp only [mem_effectLocs, not_or] at plain
    obtain ⟨h04, h53, h79, h7F⟩ := plain
    rw [windowRead_plain running h04 h53 fun _ => ⟨h79, h7F⟩]
  | b =>
    obtain ⟨h04, h53⟩ := hb rfl
    rw [windowRead_plain (p := .b) running h04 h53 nofun]

/-- From the request block on, every location but 0x53 and port A's 0x79 and 0x7F is read without an effect. -/
theorem windowRead_value (hrun : s.part ≠ .stopped) (h0 : 0x10 ≤ loc.toNat) (h53 : loc.toNat ≠ 0x53)
    (ha : p = .a → loc.toNat ≠ 0x79 ∧ loc.toNat ≠ 0x7F) : (windowRead p loc s).1 = plainRead p loc.toNat s := by
  rw [windowRead_plain (fun h => hrun h.1) (by omega) h53 ha]

theorem windowRead_response (hrun : s.part ≠ .stopped) (h0 : 0x30 ≤ loc.toNat) (h1 : loc.toNat ≤ 0x49) :
    (windowRead p loc s).1 = (s.common p).area.response.bytes.getD (loc.toNat - 0x30) 0 := by
  rw [windowRead_value hrun (by omega) (by omega) (by omega), plainRead_response h0 h1]

theorem windowRead_viewStatus (hrun : s.part ≠ .stopped) (h0 : 0x50 ≤ loc.toNat) (h1 : loc.toNat ≤ 0x52) :
    (windowRead p loc s).1 = viewStatusRead loc.toNat (s.common p).view := by
  rw [windowRead_value hrun (by omega) (by omega) (by omega), plainRead_viewStatus h0 (by omega)]

theorem windowRead_posting (hrun : s.part ≠ .stopped) (h0 : 0x60 ≤ loc.toNat) (h1 : loc.toNat ≤ 0x6F) :
    (windowRead .a loc s).1 = postingRead loc.toNat s := by
  rw [windowRead_value hrun (by omega) (by omega) (by omega), plainRead_posting h0 h1]

theorem windowRead_events (hrun : s.part ≠ .stopped) (h0 : 0x70 ≤ loc.toNat) (h79 : loc.toNat ≠ 0x79)
    (h7F : loc.toNat ≠ 0x7F) : (windowRead .a loc s).1 = eventRead loc.toNat s.events := by
  rw [windowRead_value hrun (by omega) (by omega) (by omega), plainRead_events h0]

end

/-! ## The bytes of the selected slot (12 R187) -/

section
variable {s : State} {loc : Loc} {c : ChannelNo} {k : SlotName}

/-- The byte at a location of the posting area, for a selected slot. -/
theorem windowRead_slot (hrun : s.part ≠ .stopped) (hsel : selected s = some (c, k)) {m : Nat} (hm : m ≤ 13)
    (h : loc.toNat = 0x62 + m) : (windowRead .a loc s).1 = (slotBytes (s.slotPair c) k).getD m 0 := by
  rw [windowRead_posting hrun (by omega) (by omega), postingRead_selected (by omega) hsel, h, Nat.add_sub_cancel_left]

theorem windowRead_quality (hrun : s.part ≠ .stopped) (hsel : selected s = some (c, k)) (h : loc.toNat = 0x6B) :
    (windowRead .a loc s).1.extractLsb' 0 4 = ((s.slotPair c).get k).quality.extractLsb' 0 4 := by
  rw [windowRead_slot hrun hsel (m := 9) (by decide) h, slotBytes_eq]
  exact extractLsb_append_low _ _

theorem windowRead_resultCode (hrun : s.part ≠ .stopped) (hsel : selected s = some (c, k)) (h : loc.toNat = 0x6E) :
    (windowRead .a loc s).1 = BitVec.ofNat 8 ((s.slotPair c).get k).code.number := by
  rw [windowRead_slot hrun hsel (m := 12) (by decide) h, slotBytes_eq]
  rfl

/-- Y is the older slot where its stamp is before X's, and X otherwise (02 R47). -/
theorem windowRead_older (hrun : s.part ≠ .stopped) (hsel : selected s = some (c, k)) (h : loc.toNat = 0x6F) :
    (windowRead .a loc s).1 = if (s.slotPair c).y.stamp.before (s.slotPair c).x.stamp then 1 else 0 := by
  rw [windowRead_slot hrun hsel (m := 13) (by decide) h, slotBytes_eq]
  show BitVec.ofNat 8 (s.slotPair c).older = _
  rw [SlotPair.older, apply_ite (BitVec.ofNat 8)]
  rfl

end

/-! ## The statement on reads -/

/-- Settles O46: the reads area by area; on port A the bytes of the selected slot, location by location, and the sets,
bit by bit. -/
theorem requestPostingAndEventReads : Obligations.RequestPostingAndEventReads := by
  intro s p loc hrun
  refine ⟨windowRead_unchanged hrun, fun h0 h1 => ?block, fun h => ?zero,
    fun h => ⟨fun hnone => ?noOutcome, fun o ho => ?outcome⟩, fun h => ?code, fun i k h => ?values, fun h => ?kind,
    fun h => ?pointerLow, fun h => ?pointerHigh, selected_iff s, ?portA⟩
  case block => rw [windowRead_value hrun h0 (by omega) (by omega), plainRead_block h0 h1]
  case zero =>
    have onB : p = .a → loc.toNat < 0x60 := by
      rintro rfl
      simp only [reduceCtorEq, false_and, or_false] at h
      omega
    rw [windowRead_value hrun (by omega) (by omega) fun ha => by have := onB ha; omega, plainRead_zero h]
  case noOutcome => rw [windowRead_response hrun (by omega) (by omega), h, Response.bytes_outcome, hnone]; rfl
  case outcome =>
    rw [windowRead_response hrun (by omega) (by omega), h, Response.bytes_outcome, ho]
    exact o.number_place
  case code => rw [windowRead_response hrun (by omega) (by omega), h]; rfl
  case values =>
    rw [windowRead_response hrun (by omega) (by omega), ← Response.bytes_values _ i k.2]
    congr 1
    omega
  case kind =>
    rw [windowRead_viewStatus hrun (by omega) (by omega), h]
    show (BitVec.ofNat 8 (s.common p).view.snapshot.kind).toNat = _
    cases (s.common p).view.snapshot <;> rfl
  case pointerLow => rw [windowRead_viewStatus hrun (by omega) (by omega), h]; rfl
  case pointerHigh => rw [windowRead_viewStatus hrun (by omega) (by omega), h]; rfl
  case portA =>
    rintro rfl
    refine ⟨fun h => ?select, fun h => ?slotSelect, fun hsel h0 h1 => ?unselected, fun c k hsel => ?slot, fun i => ?sets,
      fun h => ?control, fun h0 h1 => ?held, fun h => ?detail⟩
    case select => rw [windowRead_posting hrun (by omega) (by omega), h]; rfl
    case slotSelect => rw [windowRead_posting hrun (by omega) (by omega), h]; rfl
    case unselected => rw [windowRead_posting hrun (by omega) h1, postingRead_unselected h0 hsel]
    case slot =>
      have byte {m : Nat} := windowRead_slot (loc := loc) hrun hsel (m := m)
      simp only [slotBytes_eq] at byte
      refine ⟨byte (m := 0) (by decide), byte (m := 1) (by decide), byte (m := 2) (by decide), byte (m := 3) (by decide),
        byte (m := 4) (by decide), byte (m := 5) (by decide), byte (m := 6) (by decide), byte (m := 7) (by decide),
        byte (m := 8) (by decide), windowRead_quality hrun hsel, byte (m := 10) (by decide), byte (m := 11) (by decide),
        fun h => ?resultCode, fun h => ?older⟩
      case resultCode =>
        rw [windowRead_resultCode hrun hsel h]
        exact ResultCode.number_place _
      case older =>
        rw [windowRead_older hrun hsel h]
        exact ⟨fun hy => if_pos (MinuteStamp.before_iff.mpr hy), fun hy => if_neg (mt MinuteStamp.before_iff.mp hy)⟩
    case sets =>
      obtain ⟨enable, masked, pending, inService⟩ := eventRead_sets s.events i
      refine ⟨fun h => ?_, fun h => ?_, fun h => ?_, fun h => ?_⟩
      all_goals rw [windowRead_events hrun (by omega) (by omega) (by omega), h]
      · exact enable
      · exact masked
      · exact pending
      · exact inService
    case control =>
      rw [windowRead_events hrun (by omega) (by omega) (by omega), h]
      exact eventRead_control _
    case held => rw [windowRead_events hrun (by omega) (by omega) (by omega), eventRead_held _ h0 h1]
    case detail =>
      rw [windowRead_events hrun (by omega) (by omega) (by omega), h]
      exact eventRead_detailPointer _

end Sys2Proof.Machine
end

section
/-! SUPPORT. The Event Unit (11): what an event leaves of it, the six writes of port A, what is presentable, and the two
reads with an effect. -/

namespace Sys2Proof.Machine

/-! # The events of a source (11 R175, R176) -/

section
variable {u : EventUnit} {e : EventSource} (d : Nat)

theorem record_enabled (h : (u.sources.get e.number).enable = true) :
    (u.record e d).sources.get e.number =
      { u.sources.get e.number with pending := true, detail := BitVec.ofNat 16 d } := by
  simp [EventUnit.record, h]

theorem record_disabled (h : (u.sources.get e.number).enable = false) : u.record e d = u := by
  simp [EventUnit.record, h]

end

/-- Settles O52: the sources one by one, and an event by the source's enable. -/
theorem eventRecordedWhenEnabled : Obligations.EventRecordedWhenEnabled := by
  refine ⟨fun e => ?_, fun u e d =>
    ⟨record_enabled d, record_disabled d, fun i hi => record_other hi u d, record_frame u e d⟩⟩
  cases e <;> rfl

/-! # The six writes (11 R175 to R180, 12 R188) -/

/-! ## What a write makes of the sources -/

section
variable (u : EventUnit) (half : Nat) (v : Byte) (i : Fin 16)

theorem halfBit_getD (b : Bool) :
    (halfBit half v i).getD b = if i.1 / 8 = half then v.getLsbD (i.1 % 8) else b := by
  rw [halfBit, apply_ite (Option.getD · b)]
  rfl

theorem writeEnable_get :
    (u.writeEnable half v).sources.get i = { u.sources.get i with
      enable := if i.1 / 8 = half then v.getLsbD (i.1 % 8) else (u.sources.get i).enable } := by
  rw [← halfBit_getD]
  exact get_tabulate ..

theorem writeMask_get :
    (u.writeMask half v).sources.get i = { u.sources.get i with
      masked := if i.1 / 8 = half then v.getLsbD (i.1 % 8) else (u.sources.get i).masked } := by
  rw [← halfBit_getD]
  exact get_tabulate ..

/-- The held byte names sources 0 to 7, the written byte sources 8 to 15. -/
theorem clearPending_get :
    (u.clearPending v).sources.get i = { u.sources.get i with
      pending := (u.sources.get i).pending &&
        !(if i.1 < 8 then u.clearHeld.getLsbD i.1 else v.getLsbD (i.1 - 8)) } := by
  rw [← BitVec.getLsbD_append]
  exact get_tabulate ..

theorem endService_get :
    (u.endService v).sources.get i = { u.sources.get i with
      inService := (u.sources.get i).inService &&
        !(if i.1 < 8 then u.serviceHeld.getLsbD i.1 else v.getLsbD (i.1 - 8)) } := by
  rw [← BitVec.getLsbD_append]
  exact get_tabulate ..

end

section
variable {u : EventUnit} {v : Byte}

theorem writeControl_tracking : (u.writeControl v).tracking = v.getLsbD 7 := BitVec.msb_eq_getLsbD_last v

theorem writeDetailPointer_of {i : Fin 17} (h : v.toNat = i.1) :
    u.writeDetailPointer v = { u with detailPointer := i, highNext := false } := by
  rw [EventUnit.writeDetailPointer, index_of h]

theorem writeDetailPointer_ignored (h : 16 < v.toNat) : u.writeDetailPointer v = u := by
  rw [EventUnit.writeDetailPointer, index_none h]

end

/-! ## The data byte that carries a write -/

section
variable {loc : Loc} {s : State}

/-- Port A's data byte for a location of the Event Unit changes the frame and the unit only. -/
theorem Writes.portWrite_events (h : Writes .a loc s) (hrun : s.part ≠ .stopped) (h0 : 0x70 ≤ loc.toNat) (v : Byte) :
    portWrite .a loc v s = .next { afterByte .a loc s with events := eventWrite loc.toNat v s.events } := by
  have running : (afterByte .a loc s).part ≠ .stopped := hrun
  rw [h.portWrite_eq, windowWrite_run running]
  simp (disch := omega) only [if_neg, reduceCtorEq, or_false]
  rfl

theorem exec_enableWrite (h : Writes .a loc s) (hrun : s.part ≠ .stopped) (hloc : loc = 0x70 ∨ loc = 0x71) (v : Byte) :
    exec (.enableWrite loc v) s =
      .next { afterByte .a loc s with events := s.events.writeEnable (loc.toNat - 0x70) v } := by
  obtain rfl | rfl := hloc <;> exact h.portWrite_events hrun (by decide) v

theorem exec_maskWrite (h : Writes .a loc s) (hrun : s.part ≠ .stopped) (hloc : loc = 0x72 ∨ loc = 0x73) (v : Byte) :
    exec (.maskWrite loc v) s =
      .next { afterByte .a loc s with events := s.events.writeMask (loc.toNat - 0x72) v } := by
  obtain rfl | rfl := hloc <;> exact h.portWrite_events hrun (by decide) v

theorem exec_detailPointerWrite (h : Writes .a 0x7E s) (hrun : s.part ≠ .stopped) (v : Byte) :
    exec (.detailPointerWrite v) s =
      .next { afterByte .a 0x7E s with events := s.events.writeDetailPointer v } :=
  h.portWrite_events hrun (by decide) v

end

/-- Settles O53: each write by the data byte that carries it and what it makes of the sources. -/
theorem eventUnitWrites : Obligations.EventUnitWrites := by
  intro v s hrun
  refine ⟨fun loc hloc hw => ⟨_, exec_enableWrite hw hrun hloc v, rfl, writeEnable_get _ _ v⟩,
    fun loc hloc hw => ⟨_, exec_maskWrite hw hrun hloc v, rfl, writeMask_get _ _ v⟩,
    fun hw => ⟨s.events.writeControl v, hw.portWrite_events hrun (by decide) v, rfl, writeControl_tracking, rfl⟩,
    fun hw => ⟨s.events.clearPending v, hw.portWrite_events hrun (by decide) v, rfl, clearPending_get _ v⟩,
    fun hw => ⟨s.events.endService v, hw.portWrite_events hrun (by decide) v, rfl, endService_get _ v⟩,
    fun hw => ⟨fun i hi => ?pointer, fun hbeyond => ?ignored⟩⟩
  case pointer => rw [exec_detailPointerWrite hw hrun, writeDetailPointer_of hi]
  case ignored =>
    rw [exec_detailPointerWrite hw hrun, writeDetailPointer_ignored hbeyond]
    rfl

/-! # Presentation, VECTOR_READ and DETAIL_DATA_READ (11 R177, R178, R180, 12 R188) -/

/-! ## What is presentable, and INT (11 R177) -/

section
variable {u : EventUnit} {i : Fin 16}

theorem aboveService_iff : u.aboveService i = true ↔ ∀ j, (u.sources.get j).inService = true → j < i := by
  rw [EventUnit.aboveService, Bool.not_eq_true', anyOf_false_iff]
  refine forall_congr' fun j => ?_
  rw [Bool.and_eq_false_imp, decide_eq_false_iff_not, not_le]

theorem presentable_iff : u.presentable i = true ↔ Presentable u i := by
  simp [EventUnit.presentable, Presentable, and_assoc, aboveService_iff, imp_iff_not_or]

theorem presentable_false (h : ¬ Presentable u i) : u.presentable i = false :=
  Bool.eq_false_iff.mpr (mt presentable_iff.mp h)

theorem intPin_low_iff {s : State} : intPin s = false ↔ ∃ i, Presentable s.events i := by
  rw [intPin, Bool.not_eq_false', EventUnit.intAsserted, anyOf_true_iff]
  exact exists_congr fun i => presentable_iff

/-! ## The acknowledgement (11 R178) -/

theorem acknowledge_highest (h : Presentable u i) (hmax : ∀ j, i < j → ¬ Presentable u j) :
    u.acknowledge = (u.vectorBase ++ BitVec.ofNat 4 i.1,
      { u with
        sources := put u.sources i { u.sources.get i with
          pending := false, inService := (u.sources.get i).inService || u.tracking }
        lastAck := some (u.sources.get i).detail
        detailPointer := 16
        highNext := false }) := by
  have top : u.top = some i := find_highest (presentable_iff.mpr h) fun j hj => presentable_false (hmax j hj)
  rw [EventUnit.acknowledge, top]

theorem acknowledge_none (h : ∀ i, ¬ Presentable u i) :
    u.acknowledge = (u.vectorBase ++ 0#4, { u with lastAck := none }) := by
  have top : u.top = none := highest_none fun i => presentable_false (h i)
  rw [EventUnit.acknowledge, top]

/-! ## The detail data (11 R180) -/

theorem selectedDetail_source (h : u.detailPointer.1 = i.1) : u.selectedDetail = (u.sources.get i).detail := by
  rw [EventUnit.selectedDetail, index_of h]

theorem selectedDetail_lastAck (h : u.detailPointer.1 = 16) : u.selectedDetail = u.lastAck.getD 0 := by
  rw [EventUnit.selectedDetail, index_none h.ge]

theorem readDetail_low (h : u.highNext = false) :
    u.readDetail = (u.selectedDetail.extractLsb' 0 8,
      { u with highNext := true, detailHeld := u.selectedDetail.extractLsb' 8 8 }) :=
  if_neg (Bool.eq_false_iff.mp h)

/-- The pointer moves on from 16 to 0. -/
theorem readDetail_high (h : u.highNext = true) {next : Fin 17}
    (hnext : next.1 = if u.detailPointer.1 = 16 then 0 else u.detailPointer.1 + 1) :
    u.readDetail = (u.detailHeld, { u with highNext := false, detailPointer := next }) := by
  have moved : (if u.detailPointer.1 = 16 then 0 else u.detailPointer + 1) = next := by
    apply Fin.ext
    rw [hnext, apply_ite Fin.val]
    split
    · rfl
    · rw [Fin.val_add_one_of_lt' (by omega)]
  rw [EventUnit.readDetail, if_pos h, moved]

end

/-! ## The data byte that carries a read -/

section
variable {s : State} {b : Byte} {u : EventUnit}

/-- A data byte of a read frame whose next read with an effect is that of a location: the read, behind which the frame
moves on (12 R183, assumption 10). -/
theorem FrameReads.frameRead_eq {loc : Loc} (h : FrameReads loc s) :
    frameRead loc s = .next (afterRead loc (windowRead .a loc s).1 (windowRead .a loc s).2) := by
  obtain ⟨start, hframe, heffect⟩ := h
  have reaches : frameReaches s loc = true := by simp only [frameReaches, hframe, heffect, beq_self_eq_true]
  exact if_pos reaches

theorem exec_vectorRead (h : FrameReads 0x79 s) (hrun : s.part ≠ .stopped) (hack : s.events.acknowledge = (b, u)) :
    exec .vectorRead s = .next { afterRead 0x79 b s with events := u } := by
  have read : windowRead .a 0x79 s = (b, { s with events := u }) := by
    simp [windowRead, hrun, acknowledgeRead, hack]
  show frameRead 0x79 s = _
  rw [h.frameRead_eq, read]
  rfl

theorem exec_detailDataRead (h : FrameReads 0x7F s) (hrun : s.part ≠ .stopped) (hdetail : s.events.readDetail = (b, u)) :
    exec .detailDataRead s = .next { afterRead 0x7F b s with events := u } := by
  have read : windowRead .a 0x7F s = (b, { s with events := u }) := by
    simp [windowRead, hrun, detailRead, hdetail]
  show frameRead 0x7F s = _
  rw [h.frameRead_eq, read]
  rfl

end

/-- Settles O54: INT by what is presentable; a vector read by the highest presentable source, if any; a detail read by
the byte phase and the detail pointer. -/
theorem vectorAndDetailReads : Obligations.VectorAndDetailReads := by
  refine ⟨fun s _ => intPin_low_iff, fun s hreads hrun => ⟨fun i hi hmax => ?found, fun hnone => ?notFound⟩,
    fun s hreads hrun => ⟨fun hlow => ⟨fun i hi => ?source, fun hack => ?lastAck⟩, fun hhigh next hnext => ?high⟩⟩
  case found => exact exec_vectorRead hreads hrun (acknowledge_highest hi hmax)
  case notFound => exact exec_vectorRead hreads hrun (acknowledge_none hnone)
  case source =>
    rw [← selectedDetail_source hi]
    exact exec_detailDataRead hreads hrun (readDetail_low hlow)
  case lastAck =>
    rw [← selectedDetail_lastAck hack]
    exact exec_detailDataRead hreads hrun (readDetail_low hlow)
  case high => exact exec_detailDataRead hreads hrun (readDetail_high hhigh hnext)

end Sys2Proof.Machine
end

section
/-! SUPPORT. The ports and the window (12 R181 to R186): the front command, the frames of port A, the reads of part status,
the writes of registers and of the view pointer, the reads of 0x04 and 0x53, and port B's bytes and answers. -/

namespace Sys2Proof.Machine

/-! # The queue of commands and the frames of port A -/

/-- Settles O1: `step` takes the front command by its definition. -/
theorem stepTakesFrontCommand : Obligations.StepTakesFrontCommand := fun _ _ _ => rfl

/-- The header byte's top bit is the direction, the seven others the starting location (12 R183). -/
theorem exec_frameHeader {s : State} (h : s.portA.frame = some .header) (header : Byte) :
    exec (.frameHeader header) s = .next { s with
      portA := { s.portA with frame := some (.data (header.getLsbD 7) (header.extractLsb' 0 7)) } } := by
  show execFrameHeader header s = _
  rw [execFrameHeader, if_pos h, BitVec.msb_eq_getLsbD_last, BitVec.setWidth_eq_extractLsb' (by decide)]

/-- Settles O48: a start with CSN high, the header of a waiting frame, and the end. -/
theorem frameOpensAndCloses : Obligations.FrameOpensAndCloses := by
  refine fun s => ⟨fun hhigh => ?start, fun header hframe => exec_frameHeader hframe header, rfl⟩
  case start => exact if_neg (by simp [hhigh])

/-! # Identification and part status (12 R182) -/

theorem ClockState.number_place (c : ClockState) :
    [ClockState.unset, .hold, .run, .stopped][(BitVec.ofNat 8 c.number).toNat]? = some c := by
  cases c <;> rfl

theorem TimeSource.number_place (c : TimeSource) :
    [TimeSource.external, .internal][(BitVec.ofNat 8 c.number).toNat]? = some c := by
  cases c <;> rfl

theorem gapWaiting_iff (s : State) : gapWaiting s = true ↔ ∃ g, Entry.gap g ∈ s.queue := by
  rw [gapWaiting, List.any_eq_true]
  constructor
  · rintro ⟨e, hmem, hgap⟩
    cases e with
    | gap g => exact ⟨g, hmem⟩
    | _ => cases hgap
  · rintro ⟨g, hmem⟩
    exact ⟨.gap g, hmem, rfl⟩

section
variable {s : State} {p : Port} {loc : Loc}

theorem submitStatus_notRunning (h : s.part ≠ .running) : submitStatus s p = 4 := if_pos h

theorem submitStatus_busy (hrun : s.part = .running) (h : (s.common p).area.busy = true) : submitStatus s p = 3 := by
  simp [submitStatus, hrun, h]

/-- Without busy, the status numbers the area's state in the order of 10 R167. -/
theorem submitStatus_place (hrun : s.part = .running) (h : (s.common p).area.busy = false) :
    [AreaState.idle, .pending, .done][(submitStatus s p).toNat]? = some (s.common p).area.state := by
  rw [submitStatus]
  cases hstate : (s.common p).area.state <;> simp [hrun, h]

theorem phaseByte_place (s : State) : [Phase.selector, .value][(phaseByte s .a).toNat]? = some s.portB.phase := by
  rw [phaseByte]
  cases s.portB.phase <;> rfl

/-- The calendar flags at 0x0F: two bits, the others zero. -/
theorem statusRead_calendarFlags (p : Port) (s : State) :
    (statusRead p 0x0F s).getLsbD 0 = s.clock.calendarSet ∧ (statusRead p 0x0F s).getLsbD 1 = s.clock.rangeEnd ∧
      (statusRead p 0x0F s).toNat < 4 := by
  simp only [statusRead]
  cases s.clock.calendarSet <;> cases s.clock.rangeEnd <;> decide

theorem windowRead_stopped (hstop : s.part = .stopped) (h : 0x0F < loc.toNat) : windowRead p loc s = (0, s) :=
  if_pos ⟨hstop, h⟩

end

/-- Settles O45: location by location; each is a read of part status without an effect. -/
theorem partStatusReads : Obligations.PartStatusReads := by
  intro s p loc n v area capture
  have status {k : Nat} (h : n = k) (hk : k ≤ 0x0F) (h4 : k ≠ 0x04) : v = statusRead p k s := by
    subst h
    exact congrArg Prod.fst (windowRead_status hk h4)
  refine ⟨fun h h4 => congrArg Prod.snd (windowRead_status h h4), fun h => ?maker, fun h => ?revision,
    fun h => ?clock, fun h => ?source, fun h => ?yearHigh, fun h => ?dayLow, fun h => ?dayHigh, fun h => ?minuteLow,
    fun h => ?minuteHigh, fun h => ?queue, fun h hgap => ?gap, fun h hnone => ?noGap,
    fun h => ⟨fun hpower => ?power, fun hrun hbusy => ?busy, fun hrun hfree => ?submit⟩, fun h hp => ?phase,
    fun h hp => ?ownPhase, fun h => ?grace, fun h => ?flags, windowRead_stopped⟩
  case maker | revision | yearHigh | dayLow | dayHigh | minuteLow | minuteHigh | queue | grace =>
    rw [status h (by decide) (by decide)]
    rfl
  case clock => rw [status h (by decide) (by decide)]; exact s.clock.state.number_place
  case source => rw [status h (by decide) (by decide)]; exact s.clock.source.number_place
  case gap =>
    rw [status h (by decide) (by decide)]
    exact if_pos ((gapWaiting_iff s).mpr hgap)
  case noGap =>
    rw [status h (by decide) (by decide)]
    exact if_neg (mt (gapWaiting_iff s).mp (not_exists.mpr hnone))
  case power => rw [status h (by decide) (by decide)]; exact submitStatus_notRunning hpower
  case busy => rw [status h (by decide) (by decide)]; exact submitStatus_busy hrun hbusy
  case submit => rw [status h (by decide) (by decide)]; exact submitStatus_place hrun hfree
  case phase => subst hp; rw [status h (by decide) (by decide)]; exact phaseByte_place s
  case ownPhase => subst hp; rw [status h (by decide) (by decide)]; rfl
  case flags => rw [status h (by decide) (by decide)]; exact statusRead_calendarFlags p s

/-! # Writes of registers and of the view pointer (12 R181, R185 to R189) -/

section
variable {t : State} {p : Port} {loc : Loc} {v : Byte}

theorem windowWrite_block (hrun : t.part ≠ .stopped) {i : Fin 31} (h : loc.toNat = 0x10 + i.1) :
    windowWrite p loc v t = t.setCommon p { t.common p with block := put (t.common p).block i v } := by
  rw [windowWrite_run hrun, if_neg (by omega), if_pos (by omega), blockWrite, h, Nat.add_sub_cancel_left, dif_pos i.2]
  rfl

theorem windowWrite_heldPointer (hrun : t.part ≠ .stopped) :
    windowWrite p 0x51 v t =
      t.setCommon p { t.common p with view := { (t.common p).view with held := v } } :=
  windowWrite_run hrun ..

theorem windowWrite_pointer (hrun : t.part ≠ .stopped) :
    windowWrite p 0x52 v t = t.setCommon p { t.common p with view := (t.common p).view.setPointer v } :=
  windowWrite_run hrun ..

/-- The locations that take no write on either port. -/
theorem windowWrite_readOnly
    (h : loc.toNat < 0x10 ∨ (0x30 ≤ loc.toNat ∧ loc.toNat < 0x51) ∨ (0x53 ≤ loc.toNat ∧ loc.toNat < 0x60)) :
    windowWrite p loc v t = t := by
  by_cases hstop : t.part = .stopped
  · exact windowWrite_stopped hstop p loc v
  · rw [windowWrite_run hstop]
    obtain h | h | h := h <;> simp (disch := omega) only [if_pos, if_neg]

/-- Port B has no path to the posting area and the Event Unit (12 R181). -/
theorem windowWrite_unreachable (h : 0x60 ≤ loc.toNat) : windowWrite .b loc v t = t := by
  by_cases hstop : t.part = .stopped
  · exact windowWrite_stopped hstop .b loc v
  · rw [windowWrite_run hstop]
    simp (disch := omega) only [if_neg, or_true, if_true]

/-- Port A's read-only locations in the posting area and the Event Unit. -/
theorem windowWrite_readOnlyOnA (hrun : t.part ≠ .stopped)
    (h : (0x6D ≤ loc.toNat ∧ loc.toNat ≤ 0x6F) ∨ (0x74 ≤ loc.toNat ∧ loc.toNat ≤ 0x77) ∨ loc.toNat = 0x79 ∨
      loc.toNat = 0x7F) : windowWrite .a loc v t = t := by
  by_cases hposting : loc.toNat ≤ 0x6F
  · rw [windowWrite_posting hrun (by omega) hposting]
    simp (disch := omega) only [postingWrite, if_neg]
  · rw [windowWrite_run hrun]
    simp (disch := omega) only [if_neg, reduceCtorEq, or_false]
    have unchanged : eventWrite loc.toNat v t.events = t.events := by
      obtain h | ⟨h0, h1⟩ | h | h := h
      · omega
      · generalize loc.toNat = n at h0 h1
        interval_cases n <;> rfl
      · rw [h]; rfl
      · rw [h]; rfl
    rw [unchanged]

end

theorem View.setPointer_eq (w : View) (v : Byte) :
    w.setPointer v =
      if v.toNat * 256 + w.held.toNat ≤ 511 then { w with pointer := v.toNat * 256 + w.held.toNat } else w := by
  have joined : (v ++ w.held).toNat = v.toNat * 256 + w.held.toNat := by
    rw [BitVec.toNat_append, ← Nat.shiftLeft_add_eq_or_of_lt w.held.isLt, Nat.shiftLeft_eq]
  rw [View.setPointer, joined]

theorem State.setCommon_self (s : State) (p : Port) : s.setCommon p (s.common p) = s := by cases p <;> rfl

/-- A register's write is that of its data byte. -/
theorem exec_registerWrite {p : Port} {loc : Loc} {s : State} (hw : Writes p loc s) (hrow : ownRow p loc = false)
    (v : Byte) : exec (.registerWrite p loc v) s = .next (windowWrite p loc v (afterByte p loc s)) := by
  show execRegisterWrite p loc v s = _
  rw [execRegisterWrite, hrow, ← hw.portWrite_eq]
  rfl

theorem exec_viewPointerWrite {p : Port} {s : State} (hw : Writes p 0x52 s) (v : Byte) :
    exec (.viewPointerWrite p v) s = .next (windowWrite p 0x52 v (afterByte p 0x52 s)) :=
  hw.portWrite_eq v

/-- Settles O49: a register's write by its location; a write to 0x52 by the value it makes. -/
theorem registerAndViewPointerWrites : Obligations.RegisterAndViewPointerWrites := by
  refine ⟨fun p loc v s hw hrow => ?register, fun p v s hw hrun => ?pointer⟩
  case register =>
    rw [exec_registerWrite hw hrow]
    refine ⟨fun hstop => ?stopped, fun hrun => ?running⟩
    case stopped => rw [windowWrite_stopped ((afterByte_part p loc s).trans hstop)]
    case running =>
      have running : (afterByte p loc s).part ≠ .stopped := by rwa [afterByte_part]
      refine ⟨fun i h => ?block, fun h => ?held, fun hp h => ?channel, fun hp h => ?slot, fun hp h => ?clear,
        fun hp h => ?service, fun h => ?ignored⟩
      case block => rw [windowWrite_block running h]
      case held => subst h; rw [windowWrite_heldPointer running]
      case channel | slot =>
        subst hp h
        rw [windowWrite_posting running (by decide) (by decide)]
        rfl
      case clear | service =>
        subst hp h
        rw [windowWrite_run running]
        rfl
      case ignored =>
        congr 1
        obtain h | h | h | ⟨rfl, h⟩ | ⟨rfl, h⟩ := h
        · exact windowWrite_readOnly (.inl h)
        · exact windowWrite_readOnly (.inr (.inl h))
        · exact windowWrite_readOnly (.inr (.inr h))
        · exact windowWrite_unreachable h
        · exact windowWrite_readOnlyOnA running h
  case pointer =>
    have running : (afterByte p 0x52 s).part ≠ .stopped := by rwa [afterByte_part]
    rw [exec_viewPointerWrite hw, windowWrite_pointer running, View.setPointer_eq]
    refine ⟨fun hle => ?taken, fun hgt => ?ignored⟩
    case taken => rw [if_pos hle]
    case ignored => rw [if_neg (Nat.not_le.mpr hgt)]; exact congrArg _ (State.setCommon_self ..)

/-! # The reads of 0x04 and 0x53 (12 R182, R186) -/

/-- The position shown: the null stamp in UNSET, the saved position in HOLD (12 R182). -/
theorem shownPosition_eq (c : Clock) :
    shownPosition c =
      if c.state = .unset then ⟨0, 0, 0⟩ else if c.state = .hold then c.saved.getD c.position else c.position := by
  rw [shownPosition]
  cases c.state <;> rfl

theorem View.current_of {w : View} {v : Byte} (h : w.snapshot.bytes[w.pointer]? = some v) : w.current = v := by
  rw [View.current, List.getD_eq_getElem?_getD, h, Option.getD_some]

theorem View.current_beyond {w : View} (h : w.snapshot.bytes.length ≤ w.pointer) : w.current = 0 :=
  List.getD_eq_default _ _ h

section
variable {s : State} {p : Port}

theorem windowRead_capture (p : Port) (s : State) :
    windowRead p 0x04 s = (BitVec.ofNat 8 (shownPosition s.clock).year,
      s.setCommon p { s.common p with capture := shownPosition s.clock }) :=
  if_neg (fun h => absurd h.2 (by decide))

theorem windowRead_view (p : Port) (hrun : s.part ≠ .stopped) :
    windowRead p 0x53 s = ((s.common p).view.current,
      s.setCommon p { s.common p with view := (s.common p).view.advance }) :=
  if_neg (fun h => hrun h.1)

end

/-! # Port B (12 R184) -/

section
variable {s : State} {v : Byte}

theorem enqueueAnswer_idle (h : s.portB.sending = none) :
    enqueueAnswer v s = { s with portB := { s.portB with sending := some v } } := by
  rw [enqueueAnswer, h]

theorem enqueueAnswer_behind (h : s.portB.sending ≠ none) :
    enqueueAnswer v s = { s with portB := { s.portB with answers := s.portB.answers ++ [v] } } := by
  obtain ⟨a, ha⟩ := Option.ne_none_iff_exists'.mp h
  rw [enqueueAnswer, ha]

/-- A read by port B leaves what it sends, and the answers behind it, as they are. -/
theorem windowRead_answers (loc : Loc) (s : State) :
    (windowRead .b loc s).2.portB.sending = s.portB.sending ∧
      (windowRead .b loc s).2.portB.answers = s.portB.answers := by
  unfold windowRead
  dsimp only
  (repeat' split) <;> exact ⟨rfl, rfl⟩

end

section
variable {s : State} {v : Byte} (hline : s.portB.lineBreak = false)
include hline

theorem receiveByte_read (hphase : s.portB.phase = .selector) (htop : v.getLsbD 7 = true) :
    receiveByte v s = readAt (v.extractLsb' 0 7) s := by
  have top : v.msb = true := (BitVec.msb_eq_getLsbD_last v).trans htop
  simp [receiveByte, hline, hphase, top, BitVec.setWidth_eq_extractLsb']

theorem receiveByte_point (hphase : s.portB.phase = .selector) (htop : v.getLsbD 7 = false) :
    receiveByte v s = pointAt .value (v.extractLsb' 0 7) s := by
  have top : v.msb = false := (BitVec.msb_eq_getLsbD_last v).trans htop
  simp [receiveByte, hline, hphase, top, BitVec.setWidth_eq_extractLsb']

theorem receiveByte_value (hphase : s.portB.phase = .value) : receiveByte v s = writeValue v s := by
  simp [receiveByte, hline, hphase]

end

/-- A read in the SELECTOR phase: the location becomes the pointer, and its byte an answer. -/
theorem readAt_eq {s : State} (hphase : s.portB.phase = .selector) (loc : Loc) :
    readAt loc s =
      enqueueAnswer (windowRead .b loc { s with portB := { s.portB with pointer := loc } }).1
        (windowRead .b loc { s with portB := { s.portB with pointer := loc } }).2 := by
  rw [readAt, pointAt_eq loc s hphase]

section
variable {s : State}

theorem exec_answerSent_next {a b : Byte} {rest : List Byte} (ha : s.portB.sending = some a)
    (hq : s.portB.answers = b :: rest) :
    exec .answerSent s = .next { s with portB := { s.portB with sending := some b, answers := rest } } := by
  show execAnswerSent s = _
  rw [execAnswerSent, ha, hq]
  rfl

theorem exec_answerSent_last {a : Byte} (ha : s.portB.sending = some a) (hq : s.portB.answers = []) :
    exec .answerSent s = .next { s with portB := { s.portB with sending := none } } := by
  show execAnswerSent s = _
  simp [execAnswerSent, ha, hq]

end

/-- Settles O55: a byte by phase and top bit, and the four line events. -/
theorem portBReceivesAndSends : Obligations.PortBReceivesAndSends := by
  refine ⟨fun v s hline => ⟨fun hphase htop => ?read, fun hphase htop => ?point, fun hphase => ?value⟩,
    fun s => ⟨rfl, rfl, rfl, fun a b rest => exec_answerSent_next, fun a => exec_answerSent_last, fun h => ?high,
      fun a h => ?sending⟩⟩
  case read =>
    intro loc r
    have received : exec (.readSelector v) s = .next (enqueueAnswer r.1 r.2) :=
      congrArg _ ((receiveByte_read hline hphase htop).trans (readAt_eq hphase loc))
    obtain ⟨sending, answers⟩ := windowRead_answers loc { s with portB := { s.portB with pointer := loc } }
    rw [received]
    refine ⟨fun hidle => ?_, fun hbusy => ?_⟩
    · rw [enqueueAnswer_idle (sending.trans hidle)]
    · rw [enqueueAnswer_behind (fun hidle => hbusy (sending.symm.trans hidle)), answers]
  case point => exact congrArg _ (receiveByte_point hline hphase htop)
  case value => exact congrArg _ (receiveByte_value hline hphase)
  case high => rw [txdPin, h]
  case sending => rw [txdPin, h]

/-! # The statement on 0x04 and 0x53 -/

section
variable {s : State}

theorem exec_calendarCapture_a (h : FrameReads 0x04 s) :
    exec (.calendarCapture .a) s =
      .next (afterRead 0x04 (BitVec.ofNat 8 (shownPosition s.clock).year)
        (s.setCommon .a { s.common .a with capture := shownPosition s.clock })) := by
  show frameRead 0x04 s = _
  rw [h.frameRead_eq, windowRead_capture]

theorem exec_calendarCapture_b (hline : s.portB.lineBreak = false) (hphase : s.portB.phase = .selector) :
    exec (.calendarCapture .b) s =
      .next (enqueueAnswer (BitVec.ofNat 8 (shownPosition s.clock).year) { s with portB := { s.portB with
        common := { s.portB.common with capture := shownPosition s.clock }, pointer := 0x04 } }) := by
  show selectorRead 0x04 s = _
  rw [selectorRead_eq _ s hline hphase, readAt_eq hphase, windowRead_capture]
  rfl

theorem exec_viewDataRead_a (h : FrameReads 0x53 s) (hrun : s.part ≠ .stopped) :
    exec (.viewDataRead .a) s =
      .next (afterRead 0x53 (s.common .a).view.current
        (s.setCommon .a { s.common .a with view := (s.common .a).view.advance })) := by
  show frameRead 0x53 s = _
  rw [h.frameRead_eq, windowRead_view .a hrun]

theorem exec_viewDataRead_b (hrun : s.part ≠ .stopped) (hline : s.portB.lineBreak = false)
    (hphase : s.portB.phase = .selector) :
    exec (.viewDataRead .b) s =
      .next (enqueueAnswer s.portB.common.view.current { s with portB := { s.portB with
        common := { s.portB.common with view := s.portB.common.view.advance }, pointer := 0x53 } }) := by
  show selectorRead 0x53 s = _
  rw [selectorRead_eq _ s hline hphase, readAt_eq hphase, windowRead_view (hrun := ?running)]
  case running => exact hrun
  rfl

end

/-- Settles O50: the capture and the view's byte on port A by its frame, on port B by its answers. -/
theorem captureAndViewReads : Obligations.CaptureAndViewReads := by
  refine ⟨fun s => ?capture, fun s p hrun => ?view⟩
  case capture =>
    simp only [← shownPosition_eq]
    refine ⟨exec_calendarCapture_a, fun hline hphase => ⟨_, exec_calendarCapture_b hline hphase, ?_⟩⟩
    by_cases hsend : s.portB.sending = none
    · rw [enqueueAnswer_idle (h := ?idle)]
      case idle => exact hsend
      exact ⟨rfl, rfl, fun _ => ⟨rfl, rfl⟩, fun h => absurd hsend h, rfl⟩
    · rw [enqueueAnswer_behind (h := ?busy)]
      case busy => exact hsend
      exact ⟨rfl, rfl, fun h => absurd h hsend, fun _ => ⟨rfl, rfl⟩, rfl⟩
  case view =>
    refine ⟨(s.common p).view.current, fun v => View.current_of, View.current_beyond, fun hp hframe => ?portA,
      fun hp hline hphase hsend => ?portB⟩
    case portA => subst hp; exact exec_viewDataRead_a hframe hrun
    case portB =>
      subst hp
      rw [exec_viewDataRead_b hrun hline hphase, enqueueAnswer_idle (h := ?idle)]
      case idle => exact hsend
      rfl

end Sys2Proof.Machine
end

section
/-! SUPPORT. The bytes of the four snapshots (12 R186): the groups of bytes that stand one behind the other, what each group
shows, and the four layouts read off from the first group to the last. -/

namespace Sys2Proof.Machine

/-! # What a group of bytes shows (12 R181, R185) -/

/-- The bytes of a list from an offset on begin with a group. -/
def Stands (b : List Byte) (offset : Nat) (group : List Byte) : Prop := group <+: b.drop offset

/-- The number a group of bytes shows, the lowest byte first. -/
def groupNat (group : List Byte) : Nat := group.foldr (fun x acc => x.toNat + 256 * acc) 0

theorem groupNat_cons (x : Byte) (g : List Byte) : groupNat (x :: g) = x.toNat + 256 * groupNat g := rfl

theorem leNat_eq_groupNat (b : List Byte) (offset n : Nat) :
    leNat b offset n = groupNat ((b.drop offset).take n) := rfl

/-- A whole list stands at offset 0. -/
theorem Stands.whole (b : List Byte) : Stands b 0 (b ++ []) := by
  rw [List.append_nil]
  exact List.prefix_rfl

section
variable {b g rest : List Byte} {o n : Nat}

theorem Stands.first (h : Stands b o (g ++ rest)) : Stands b o g := (List.prefix_append g rest).trans h

/-- Behind a group of n bytes stands what follows it, n bytes on. -/
theorem Stands.next (h : Stands b o (g ++ rest)) (hg : g.length = n) : Stands b (o + n) rest := by
  subst hg
  rw [Stands, ← List.drop_drop]
  simpa using h.drop g.length

theorem Stands.leNat_eq (h : Stands b o g) (hg : g.length = n) : leNat b o n = groupNat g := by
  subst hg
  rw [leNat_eq_groupNat, ← List.prefix_iff_eq_take.mp h]

end

theorem groupNat_natBytes (n v : Nat) : groupNat (natBytes n v) = v % 256 ^ n := by
  induction n generalizing v with
  | zero => rw [Nat.pow_zero, Nat.mod_one]; rfl
  | succ n ih => rw [Nat.pow_succ', Nat.mod_mul, natBytes, groupNat_cons, ih, BitVec.toNat_ofNat]

theorem groupNat_onesBytes (n : Nat) : groupNat (onesBytes n) = 256 ^ n - 1 := by
  induction n with
  | zero => rfl
  | succ n ih =>
    have positive : 0 < 256 ^ n := Nat.pow_pos (by decide)
    rw [onesBytes, List.replicate_succ, groupNat_cons, ← onesBytes, ih, Nat.pow_succ',
      show (0xFF : Byte).toNat = 255 from rfl]
    omega

theorem groupNat_zeros (n : Nat) : groupNat (List.replicate n 0) = 0 := by
  induction n with
  | zero => rfl
  | succ n ih => rw [List.replicate_succ, groupNat_cons, ih]; rfl

/-! ## One group and what stands behind it -/

section
variable {b rest : List Byte} {o n : Nat}

theorem Stands.shows {v : Nat} (h : Stands b o (natBytes n v ++ rest)) : Shows b o n v ∧ Stands b (o + n) rest :=
  ⟨(h.first.leNat_eq (natBytes_length n v)).trans (groupNat_natBytes n v), h.next (natBytes_length n v)⟩

theorem Stands.showsOr {v : Option Nat} (h : Stands b o (natBytesOr n v ++ rest)) :
    ShowsOr b o n v ∧ Stands b (o + n) rest := by
  refine ⟨⟨fun hnone => ?absent, fun k hsome => ?present⟩, h.next (natBytesOr_length n v)⟩
  case absent =>
    subst hnone
    exact (h.first.leNat_eq (onesBytes_length n)).trans (groupNat_onesBytes n)
  case present =>
    subst hsome
    exact h.shows.1

theorem Stands.zeros (h : Stands b o (List.replicate n 0 ++ rest)) : ZeroFrom b o n ∧ Stands b (o + n) rest :=
  ⟨(h.first.leNat_eq List.length_replicate).trans (groupNat_zeros n), h.next List.length_replicate⟩

end

/-! ## Stamps (12 R185) -/

/-- Two joined fields, the lower one below the upper. -/
theorem append_toNat {v w : Nat} (x : BitVec v) (y : BitVec w) : (x ++ y).toNat = y.toNat + 2 ^ w * x.toNat := by
  rw [BitVec.toNat_append, ← Nat.shiftLeft_add_eq_or_of_lt y.isLt, Nat.shiftLeft_eq, Nat.mul_comm, Nat.add_comm]

theorem stampWord_toNat {year : Nat} (h : 2000 ≤ year) (day part : Nat) :
    (stampWord year day part).toNat = part % 2048 + 2048 * (day % 512) + 1048576 * ((year - 2000) % 256) := by
  rw [stampWord, stampYear, if_pos h]
  simp only [append_toNat, BitVec.toNat_ofNat]
  omega

theorem wordBytesOr_eq (w : Option Word32) : wordBytesOr w = natBytesOr 4 (w.map BitVec.toNat) := by cases w <;> rfl

section
variable {b rest : List Byte} {o : Nat}

/-- Four bytes of a stamp's word show the stamp. -/
theorem showsStamp_of_word {year day part : Nat} (h : Shows b o 4 (stampWord year day part).toNat) :
    ShowsStamp b o year day part := by
  intro hyear
  have bound := (stampWord year day part).isLt
  rw [← stampWord_toNat hyear]
  exact h.trans (Nat.mod_eq_of_lt bound)

theorem Stands.showsStamp {year day part : Nat} (h : Stands b o (bitBytes 4 (stampWord year day part) ++ rest)) :
    ShowsStamp b o year day part ∧ Stands b (o + 4) rest :=
  h.shows.imp_left showsStamp_of_word

theorem Stands.showsMinuteOr {m : Option MinuteStamp}
    (h : Stands b o (wordBytesOr (m.map MinuteStamp.word) ++ rest)) :
    ((m = none → leNat b o 4 = 0xFFFFFFFF) ∧ ∀ d, m = some d → ShowsStamp b o d.year d.day d.minute) ∧
      Stands b (o + 4) rest := by
  rw [wordBytesOr_eq] at h
  obtain ⟨⟨absent, present⟩, h⟩ := h.showsOr
  refine ⟨⟨fun hnone => absent (by rw [hnone]; rfl), fun d hsome => ?_⟩, h⟩
  exact showsStamp_of_word (present _ (by rw [hsome]; rfl))

theorem Stands.showsHalfHourOr {m : Option HalfHourStamp} (h : Stands b o (halfHourBytesOr m ++ rest)) :
    ShowsStampOr b o m ∧ Stands b (o + 4) rest := by
  rw [halfHourBytesOr, wordBytesOr_eq] at h
  obtain ⟨⟨absent, present⟩, h⟩ := h.showsOr
  refine ⟨⟨fun hnone => absent (by rw [hnone]; rfl), fun d hsome => ?_⟩, h⟩
  exact showsStamp_of_word (present _ (by rw [hsome]; rfl))

end

/-! ## Single bytes -/

theorem byte_boolByte (x : Bool) : [boolByte x] = natBytes 1 x.toNat := by cases x <;> rfl

theorem byte_stackSubstance (stack : StackNo) (substance : Fin 16) :
    [stackSubstanceByte stack substance] = natBytes 1 (16 * stack.1 + substance.1) := by
  rw [natBytes, natBytes, List.cons.injEq]
  refine ⟨BitVec.eq_of_toNat_eq ?_, rfl⟩
  rw [stackSubstanceByte, append_toNat]
  simp only [BitVec.toNat_ofNat]
  omega

theorem byte_one : [(1 : Byte)] = natBytes 1 1 := rfl

theorem byte_verdict (v : Verdict) :
    [v.byte] = natBytes 1 (v.shortMet.toNat + 2 * v.pctMet.toNat + 4 * v.dayMet.toNat + 8 * v.availabilityMet.toNat) := rfl

/-! ## Named values (12 R181: numbered from 0 in the order of their rule) -/

section
variable {b : List Byte} {o : Nat}

theorem Shows.accountState {x : AccountState} (h : Shows b o 1 x.number) :
    [AccountState.free, .draft, .active, .frozen, .lapsed][leNat b o 1]? = some x := by
  rw [show leNat b o 1 = _ from h]
  cases x <;> rfl

theorem Shows.channelState {x : ChannelState} (h : Shows b o 1 x.number) :
    [ChannelState.unused, .idle, .collecting][leNat b o 1]? = some x := by
  rw [show leNat b o 1 = _ from h]
  cases x <;> rfl

theorem Shows.stackState {x : StackState} (h : Shows b o 1 x.number) :
    [StackState.off, .firing, .abnormal][leNat b o 1]? = some x := by
  rw [show leNat b o 1 = _ from h]
  cases x <;> rfl

theorem Shows.stopDemand {x : StopDemand} (h : Shows b o 1 x.number) :
    [StopDemand.released, .episode, .annual][leNat b o 1]? = some x := by
  rw [show leNat b o 1 = _ from h]
  cases x <;> rfl

/-- Four bytes of a returned value give the value back. -/
theorem Shows.signed {z : Int} (h : Shows b o 4 (num z).toNat) : BitVec.ofNat 32 (leNat b o 4) = BitVec.ofInt 32 z := by
  have whole : leNat b o 4 = (num z).toNat := h.trans (Nat.mod_eq_of_lt (num z).isLt)
  rw [whole, BitVec.ofNat_toNat, BitVec.setWidth_eq, num]

end

/-! # ACCOUNT: 151 bytes -/

theorem maxDayBytes_eq (m : Option MaxDay) :
    maxDayBytes m = natBytesOr 4 (m.map (·.average)) ++ natBytesOr 2 (m.map (·.day)) := by
  cases m <;> rfl

theorem maxHalfHourBytes_eq (m : Option MaxHalfHour) :
    maxHalfHourBytes m = natBytesOr 4 (m.map (·.value)) ++ halfHourBytesOr (m.map (·.stamp)) := by
  cases m <;> rfl

section
variable {b rest : List Byte} {o : Nat}

theorem Stands.showsYear {y : YearPart} (h : Stands b o (y.bytes ++ rest)) : ShowsYear b o y := by
  simp only [YearPart.bytes, maxDayBytes_eq, maxHalfHourBytes_eq, List.append_assoc] at h
  obtain ⟨hhValid, h⟩ := h.shows
  obtain ⟨hhInvalid, h⟩ := h.shows
  obtain ⟨hhExcluded, h⟩ := h.shows
  obtain ⟨hhAbnormal, h⟩ := h.shows
  obtain ⟨hhGap, h⟩ := h.shows
  obtain ⟨hhOverShort, h⟩ := h.shows
  obtain ⟨hhOverPct, h⟩ := h.shows
  obtain ⟨hhInternal, h⟩ := h.shows
  obtain ⟨daysValid, h⟩ := h.shows
  obtain ⟨daysInvalid, h⟩ := h.shows
  obtain ⟨daysExcluded, h⟩ := h.shows
  obtain ⟨daysAbnormal, h⟩ := h.shows
  obtain ⟨daysOver, h⟩ := h.shows
  obtain ⟨maxAverage, h⟩ := h.showsOr
  obtain ⟨maxDay, h⟩ := h.showsOr
  obtain ⟨maxValue, h⟩ := h.showsOr
  obtain ⟨maxStamp, h⟩ := h.showsHalfHourOr
  obtain ⟨episodesEnded, h⟩ := h.shows
  obtain ⟨longestEpisode, -⟩ := h.shows
  exact ⟨hhValid, hhInvalid, hhExcluded, hhAbnormal, hhGap, hhOverShort, hhOverPct, hhInternal, daysValid, daysInvalid,
    daysExcluded, daysAbnormal, daysOver, maxAverage, maxDay, maxValue, maxStamp, episodesEnded, longestEpisode⟩

/-- The 63 bytes of the current side. -/
theorem Stands.showsCurrentSide {side : Option CurrentSide} (h : Stands b 38 (currentSideBytes side ++ rest)) :
    (side = none → ZeroFrom b 38 63) ∧ ∀ c, side = some c →
      Shows b 38 1 1 ∧ Shows b 39 2 c.marks.toNat ∧ Shows b 41 2 c.day.day ∧ Shows b 43 1 c.day.hhValid ∧
      Shows b 44 1 c.day.hhInvalid ∧ Shows b 45 1 c.day.hhExcluded ∧ Shows b 46 1 c.day.hhAbnormal ∧
      Shows b 47 1 c.day.hhGap ∧ Shows b 48 1 c.day.hhOverShort ∧ Shows b 49 8 c.day.sum ∧ ShowsYear b 57 c.year := by
  refine ⟨fun hnone => by subst hnone; exact h.zeros.1, fun c hside => ?_⟩
  subst hside
  simp only [currentSideBytes, DayPart.bytes, bitBytes, byte_one, List.append_assoc] at h
  obtain ⟨present, h⟩ := h.shows
  obtain ⟨marks, h⟩ := h.shows
  obtain ⟨day, h⟩ := h.shows
  obtain ⟨hhValid, h⟩ := h.shows
  obtain ⟨hhInvalid, h⟩ := h.shows
  obtain ⟨hhExcluded, h⟩ := h.shows
  obtain ⟨hhAbnormal, h⟩ := h.shows
  obtain ⟨hhGap, h⟩ := h.shows
  obtain ⟨hhOverShort, h⟩ := h.shows
  obtain ⟨sum, h⟩ := h.shows
  exact ⟨present, marks, day, hhValid, hhInvalid, hhExcluded, hhAbnormal, hhGap, hhOverShort, sum, h.showsYear⟩

/-- The 50 bytes of the closed side. -/
theorem Stands.showsClosedSide {side : Option ClosedSide} (h : Stands b 101 (closedSideBytes side ++ rest)) :
    (side = none → ZeroFrom b 101 50) ∧ ∀ c, side = some c →
      Shows b 101 1 1 ∧ Shows b 102 2 c.yearNo ∧ Shows b 104 2 c.marks.toNat ∧
      Shows b 106 1 (c.verdict.shortMet.toNat + 2 * c.verdict.pctMet.toNat + 4 * c.verdict.dayMet.toNat +
        8 * c.verdict.availabilityMet.toNat) ∧ ShowsYear b 107 c.year := by
  refine ⟨fun hnone => by subst hnone; exact h.zeros.1, fun c hside => ?_⟩
  subst hside
  simp only [closedSideBytes, bitBytes, byte_one, byte_verdict, List.append_assoc] at h
  obtain ⟨present, h⟩ := h.shows
  obtain ⟨yearNo, h⟩ := h.shows
  obtain ⟨marks, h⟩ := h.shows
  obtain ⟨verdict, h⟩ := h.shows
  exact ⟨present, yearNo, marks, verdict, h.showsYear⟩

end

theorem AccountSnapshot.bytes_length (x : AccountSnapshot) : x.bytes.length = 151 := by
  unfold AccountSnapshot.bytes
  simp only [List.length_append, List.length_singleton, natBytes_length, bitBytes_length, natBytesOr_length,
    halfHourBytesOr_length, currentSideBytes_length, closedSideBytes_length]

/-! # CHANNEL: 18 bytes -/

theorem ChannelSnapshot.bytes_length (x : ChannelSnapshot) : x.bytes.length = 18 := by
  simp [ChannelSnapshot.bytes, natBytes_length, bitBytes_length, natBytesOr_length]

/-! # STACK: 39 bytes -/

/-- The twelve bytes of the input record and the line, as numbers. -/
theorem StackInput.bytes_eq (r : StackInput) (line : Bool) :
    r.bytes line =
      natBytes 1 r.enable.toNat ++ (natBytes 1 r.debounce ++ (natBytes 1 r.takenOn.toNat ++ (natBytes 1 line.toNat ++
        (natBytes 1 r.timer.isSome.toNat ++ (natBytes 1 r.state.number ++
          (wordBytesOr (r.declaration.map MinuteStamp.word) ++
            (natBytes 1 (r.openMarks.fired.toNat + 2 * r.openMarks.abnormal.toNat) ++
              natBytesOr 1 (r.frozen.map fun m => m.fired.toNat + 2 * m.abnormal.toNat)))))))) := by
  simp only [StackInput.bytes, ← byte_boolByte, List.append_assoc]
  cases r.frozen <;> rfl

theorem StackSnapshot.bytes_length (x : StackSnapshot) : x.bytes.length = 39 := by
  simp [StackSnapshot.bytes, StackInput.bytes_eq, StackAllowance.bytes, natBytes_length, natBytesOr_length,
    wordBytesOr_length, halfHourBytesOr_length]

/-! # EPISODE: 31 bytes -/

theorem SubjectShown.bytes_account (key : Key) (state : AccountState) :
    (SubjectShown.account key state).bytes =
      natBytes 1 (16 * key.stack.1 + key.substance.1) ++ (natBytes 1 key.edition ++ (natBytes 1 state.number ++
        List.replicate 3 0)) := by
  rw [← byte_stackSubstance]
  rfl

theorem SubjectShown.bytes_stack (runHh : Nat) (demand : StopDemand) :
    (SubjectShown.stack runHh demand).bytes =
      List.replicate 3 0 ++ (natBytes 2 runHh ++ natBytes 1 demand.number) := rfl

theorem SubjectShown.bytes_length (x : SubjectShown) : x.bytes.length = 6 := by cases x <;> rfl

theorem EpisodeSnapshot.bytes_length (x : EpisodeSnapshot) : x.bytes.length = 31 := by
  simp [EpisodeSnapshot.bytes, natBytes_length, bitBytes_length, natBytesOr_length, halfHourBytesOr_length,
    SubjectShown.bytes_length]

section
variable {b rest : List Byte}

/-- Kind and subject of an episode (08 R139). -/
theorem Stands.showsSubject {subject : Subject} {o : Nat}
    (h : Stands b o (natBytes 1 subject.kind ++ (natBytes 1 subject.index ++ rest))) :
    ((∀ i : SlotNo, subject = .exceedance i → Shows b o 1 0 ∧ Shows b (o + 1) 1 i) ∧
      ∀ i : StackNo, subject = .abnormalOperation i → Shows b o 1 1 ∧ Shows b (o + 1) 1 i) ∧
      Stands b (o + 1 + 1) rest := by
  obtain ⟨kind, h⟩ := h.shows
  obtain ⟨index, h⟩ := h.shows
  refine ⟨⟨fun i hi => ?_, fun i hi => ?_⟩, h⟩
  · subst hi; exact ⟨kind, index⟩
  · subst hi; exact ⟨kind, index⟩

/-- The six bytes of what an episode's subject is at the time (08 R152). -/
theorem Stands.showsShown {shown : SubjectShown} (h : Stands b 25 (shown.bytes ++ rest)) :
    (∀ key state, shown = .account key state →
      Shows b 25 1 (16 * key.stack.1 + key.substance.1) ∧ Shows b 26 1 key.edition ∧
        [AccountState.free, .draft, .active, .frozen, .lapsed][leNat b 27 1]? = some state ∧ ZeroFrom b 28 3) ∧
    ∀ runHh demand, shown = .stack runHh demand →
      ZeroFrom b 25 3 ∧ Shows b 28 2 runHh ∧ [StopDemand.released, .episode, .annual][leNat b 30 1]? = some demand := by
  refine ⟨fun key state hshown => ?account, fun runHh demand hshown => ?stack⟩
  case account =>
    subst hshown
    simp only [SubjectShown.bytes_account, List.append_assoc] at h
    obtain ⟨stackSubstance, h⟩ := h.shows
    obtain ⟨edition, h⟩ := h.shows
    obtain ⟨state, h⟩ := h.shows
    exact ⟨stackSubstance, edition, state.accountState, h.zeros.1⟩
  case stack =>
    subst hshown
    simp only [SubjectShown.bytes_stack, List.append_assoc] at h
    obtain ⟨zeros, h⟩ := h.zeros
    obtain ⟨runHh, h⟩ := h.shows
    exact ⟨zeros, runHh, h.shows.1.stopDemand⟩

end

/-! # The statement on the four layouts -/

/-- Settles O47: each snapshot group by group, in the order of its offsets. -/
theorem snapshotsLayOutBytes : Obligations.SnapshotsLayOutBytes := by
  refine ⟨fun x => ?account, fun x => ?channel, fun x => ?stack, fun x => ?episode⟩
  case account =>
    intro b a
    have h : Stands b 0 (x.bytes ++ []) := .whole b
    unfold AccountSnapshot.bytes at h
    simp only [bitBytes, byte_stackSubstance, List.append_assoc] at h
    obtain ⟨slot, h⟩ := h.shows
    obtain ⟨state, h⟩ := h.shows
    obtain ⟨stackSubstance, h⟩ := h.shows
    obtain ⟨edition, h⟩ := h.shows
    obtain ⟨source, h⟩ := h.showsOr
    obtain ⟨linked, h⟩ := h.showsOr
    obtain ⟨cfgRev, h⟩ := h.shows
    obtain ⟨short, h⟩ := h.showsOr
    obtain ⟨pctLimit, h⟩ := h.showsOr
    obtain ⟨pctShare, h⟩ := h.showsOr
    obtain ⟨day, h⟩ := h.showsOr
    obtain ⟨ci, h⟩ := h.shows
    obtain ⟨maxInvalid, h⟩ := h.shows
    obtain ⟨allowance, h⟩ := h.shows
    obtain ⟨episodes, h⟩ := h.shows
    obtain ⟨openNumber, h⟩ := h.shows
    obtain ⟨activatedAt, h⟩ := h.showsHalfHourOr
    obtain ⟨frozenAt, h⟩ := h.showsHalfHourOr
    obtain ⟨noCurrent, current⟩ := h.showsCurrentSide
    obtain ⟨noClosed, closed⟩ := (h.next (currentSideBytes_length _)).showsClosedSide
    exact ⟨x.bytes_length, slot, state.accountState, stackSubstance, edition, source, linked, cfgRev, short, pctLimit,
      pctShare, day, ci, maxInvalid, allowance, episodes, openNumber, activatedAt, frozenAt, noCurrent, current, noClosed,
      closed⟩
  case channel =>
    intro b ch
    have h : Stands b 0 (x.bytes ++ []) := .whole b
    simp only [ChannelSnapshot.bytes, bitBytes, byte_stackSubstance, List.append_assoc] at h
    obtain ⟨channel, h⟩ := h.shows
    obtain ⟨state, h⟩ := h.shows
    obtain ⟨stackSubstance, h⟩ := h.shows
    obtain ⟨low, h⟩ := h.shows
    obtain ⟨high, h⟩ := h.shows
    obtain ⟨minMinutes, h⟩ := h.shows
    obtain ⟨oxygenSource, h⟩ := h.showsOr
    obtain ⟨reference, h⟩ := h.showsOr
    obtain ⟨link, h⟩ := h.showsOr
    obtain ⟨namedBy, h⟩ := h.shows
    obtain ⟨draft, -⟩ := h.showsOr
    exact ⟨x.bytes_length, channel, state.channelState, stackSubstance, low.signed, high.signed, minMinutes, oxygenSource,
      reference, link, namedBy, draft⟩
  case stack =>
    intro b i r
    have h : Stands b 0 (x.bytes ++ []) := .whole b
    simp only [StackSnapshot.bytes, StackInput.bytes_eq, StackAllowance.bytes, byte_boolByte, List.append_assoc] at h
    obtain ⟨stack, h⟩ := h.shows
    obtain ⟨enable, h⟩ := h.shows
    obtain ⟨debounce, h⟩ := h.shows
    obtain ⟨takenOn, h⟩ := h.shows
    obtain ⟨line, h⟩ := h.shows
    obtain ⟨timer, h⟩ := h.shows
    obtain ⟨state, h⟩ := h.shows
    obtain ⟨⟨undeclared, declared⟩, h⟩ := h.showsMinuteOr
    obtain ⟨openMarks, h⟩ := h.shows
    obtain ⟨frozen, h⟩ := h.showsOr
    obtain ⟨episodeAllowance, h⟩ := h.shows
    obtain ⟨annualAllowance, h⟩ := h.shows
    obtain ⟨runHh, h⟩ := h.shows
    obtain ⟨yearAbnHh, h⟩ := h.shows
    obtain ⟨episodesYear, h⟩ := h.shows
    obtain ⟨longestRun, h⟩ := h.shows
    obtain ⟨exceeded, h⟩ := h.shows
    obtain ⟨demand, h⟩ := h.shows
    obtain ⟨lastStamp, h⟩ := h.showsHalfHourOr
    obtain ⟨lastFired, h⟩ := h.showsOr
    obtain ⟨lastAbnormal, h⟩ := h.showsOr
    obtain ⟨previousHh, h⟩ := h.shows
    obtain ⟨previousEpisodes, h⟩ := h.shows
    obtain ⟨previousRun, h⟩ := h.shows
    obtain ⟨previousExceeded, -⟩ := h.shows
    exact ⟨x.bytes_length, stack, enable, debounce, takenOn, line, timer, state.stackState, undeclared, declared, openMarks,
      frozen, episodeAllowance, annualAllowance, runHh, yearAbnHh, episodesYear, longestRun, exceeded, demand.stopDemand,
      lastStamp, lastFired, lastAbnormal, previousHh, previousEpisodes, previousRun, previousExceeded⟩
  case episode =>
    intro b e
    have h : Stands b 0 (x.bytes ++ []) := .whole b
    simp only [EpisodeSnapshot.bytes, HalfHourStamp.word, byte_boolByte, List.append_assoc] at h
    obtain ⟨number, h⟩ := h.shows
    obtain ⟨⟨exceedance, abnormal⟩, h⟩ := h.showsSubject
    obtain ⟨ended, h⟩ := h.shows
    obtain ⟨start, h⟩ := h.showsStamp
    obtain ⟨endStamp, h⟩ := h.showsHalfHourOr
    obtain ⟨length, h⟩ := h.shows
    obtain ⟨peak, h⟩ := h.showsOr
    obtain ⟨acknowledged, h⟩ := h.shows
    obtain ⟨cause, h⟩ := h.shows
    obtain ⟨position, h⟩ := h.shows
    obtain ⟨count, h⟩ := h.shows
    obtain ⟨counter, h⟩ := h.shows
    obtain ⟨account, stack⟩ := h.showsShown
    exact ⟨x.bytes_length, number, exceedance, abnormal, ended, start, endStamp, length, peak, acknowledged, cause,
      position, count, counter, account, stack⟩

end Sys2Proof.Machine
end
